-- ==== Sys2Proof/Word.lean ====
section
/-! DEFINITION. The bit strings that cross the ports (spec/00_scope.md R7, R9 to R11).
A value of width N is a `BitVec N`: bit 0 is the least significant, `BitVec.toNat` is the spec's `u_N`
and `BitVec.toInt` its `s_N`. -/

namespace Sys2Proof

/-- The instruction word on `req_ctl`, `CTL_BITS` = 32 (R7, R38). -/
abbrev Ctl := BitVec 32

/-- What `req_a` and `rsp_r` carry, `OPA_BITS` = 64 (R7). -/
abbrev DataWord := BitVec 64

/-- What `req_f0` to `req_f3` and `rsp_g0` to `rsp_g3` carry: one 16-bit field (R6, R21, R22). -/
abbrev FieldBits := BitVec 16

end Sys2Proof
end

