-- ==== Sys2Proof/Machine/Ports.lean ====
section
/-! DEFINITION. The request ports, the response ports, and the request and response as values
(spec/10_state.md R21, R22; spec/60_exceptions.md R84). -/

namespace Sys2Proof.Machine

/-- The data operands that travel beside an instruction word: `req_a`, `req_f0` to `req_f3` (R21, R38). -/
structure DataOperands where
  a : DataWord
  f0 : FieldBits
  f1 : FieldBits
  f2 : FieldBits
  f3 : FieldBits
  deriving DecidableEq, Repr

/-- A request: the six values that `Exec` reads (R21, R23). -/
structure Request where
  ctl : Ctl
  a : DataWord
  f0 : FieldBits
  f1 : FieldBits
  f2 : FieldBits
  f3 : FieldBits
  deriving DecidableEq, Repr

/-- The values the host holds on every input port for one step: one consistent sample (R21, R33, R104). `rst` exists
only with `LATENCY` > 0 (R25, R101). -/
structure Drive where
  rst : Bool
  reqValid : Bool
  reqCtl : Ctl
  reqA : DataWord
  reqF0 : FieldBits
  reqF1 : FieldBits
  reqF2 : FieldBits
  reqF3 : FieldBits
  deriving DecidableEq, Repr

/-- No reset, no request, every bus 0. DESIGN CHOICE, safe: what the host holds on the buses while it makes no
request is not read (R24; log entries 5 and 8). -/
def Drive.idle : Drive :=
  { rst := false, reqValid := false, reqCtl := 0, reqA := 0, reqF0 := 0, reqF1 := 0, reqF2 := 0, reqF3 := 0 }

/-- The request that a drive carries while `req_valid` = 1 (R21). -/
def Drive.request (d : Drive) : Request :=
  { ctl := d.reqCtl, a := d.reqA, f0 := d.reqF0, f1 := d.reqF1, f2 := d.reqF2, f3 := d.reqF3 }

/-- The drive that presents a request: `req_valid` = 1 (R21). -/
def Request.drive (q : Request) : Drive :=
  { rst := false, reqValid := true, reqCtl := q.ctl, reqA := q.a, reqF0 := q.f0, reqF1 := q.f1, reqF2 := q.f2,
    reqF3 := q.f3 }

/-- The error kinds on `rsp_err` (R84). -/
inductive ErrKind where
  | ok
  | rangeError
  | formatError
  | illegalRequest
  deriving DecidableEq, Repr

/-- The code of an error kind on `rsp_err` (R22, R84). FORMAT_ERROR is reserved and no response has it (R91). -/
def ErrKind.code : ErrKind → BitVec 2
  | .ok => 0
  | .rangeError => 1
  | .formatError => 2
  | .illegalRequest => 3

/-- What `rsp_param` names (R84). -/
inductive ParamKind where
  | none
  | bitPosition
  | bitState
  | base
  deriving DecidableEq, Repr

/-- The code of a parameter on `rsp_param` (R22, R84). The base is reserved and no response has it (R91). -/
def ParamKind.code : ParamKind → BitVec 2
  | .none => 0
  | .bitPosition => 1
  | .bitState => 2
  | .base => 3

/-- The parameters that a RangeError of this engine can be about (R83, R86, R88). -/
inductive RangeParam where
  | position
  | state
  deriving DecidableEq, Repr

/-- The name `rsp_param` gives a RangeError's parameter (R84). -/
def RangeParam.kind : RangeParam → ParamKind
  | .position => .bitPosition
  | .state => .bitState

/-- A response as a sum (R22): a success with its five data values, or an error with its details and NO data value, as
R92 and U12 prefer. -/
inductive Response where
  | ok (r : DataWord) (g0 g1 g2 g3 : FieldBits)
  | rangeError (param : RangeParam) (value : BitVec 32) (bound : BitVec 8)
  | illegalRequest (ctl : Ctl)
  deriving DecidableEq, Repr, Inhabited

/-- The kind of a response (R84). -/
def Response.kind : Response → ErrKind
  | .ok .. => .ok
  | .rangeError .. => .rangeError
  | .illegalRequest _ => .illegalRequest

/-- The values of every output port (R22). -/
structure RspPorts where
  valid : Bool
  err : BitVec 2
  param : BitVec 2
  errval : BitVec 32
  errbound : BitVec 8
  r : DataWord
  g0 : FieldBits
  g1 : FieldBits
  g2 : FieldBits
  g3 : FieldBits
  deriving DecidableEq, Repr

/-- The output ports while there is no response: `rsp_valid` = 0 and every other port 0 (R24). -/
def RspPorts.idle : RspPorts :=
  { valid := false, err := 0, param := 0, errval := 0, errbound := 0, r := 0, g0 := 0, g1 := 0, g2 := 0, g3 := 0 }

/-- A response on the output ports (R22, R87, R90, R92): the data outputs of an error are 0. -/
def Response.ports : Response → RspPorts
  | .ok r g0 g1 g2 g3 =>
    { valid := true, err := ErrKind.ok.code, param := ParamKind.none.code, errval := 0, errbound := 0,
      r := r, g0 := g0, g1 := g1, g2 := g2, g3 := g3 }
  | .rangeError param value bound =>
    { valid := true, err := ErrKind.rangeError.code, param := param.kind.code, errval := value, errbound := bound,
      r := 0, g0 := 0, g1 := 0, g2 := 0, g3 := 0 }
  | .illegalRequest ctl =>
    { valid := true, err := ErrKind.illegalRequest.code, param := ParamKind.none.code, errval := ctl, errbound := 0,
      r := 0, g0 := 0, g1 := 0, g2 := 0, g3 := 0 }

end Sys2Proof.Machine
end

