-- ==== Sys2Proof/Syntax.lean ====
section
/-! DEFINITION. The twelve instructions of the opcode map (spec/30_encoding.md R47, spec/opcode_table.json), one
constructor for each row. `pos` and `st` are the unsigned readings `u_8(pos)` and `u_8(st)` of R43 and R44. -/

namespace Sys2Proof

/-- The instructions. The data operands are not part of an instruction: they travel beside it on the request ports
(R38). -/
inductive Instr where
  | absW32
  | absW64
  | btstW8 (pos : Nat)
  | btstW16 (pos : Nat)
  | btstW32 (pos : Nat)
  | btstW64 (pos : Nat)
  | bsetW8 (pos st : Nat)
  | bsetW16 (pos st : Nat)
  | bsetW32 (pos st : Nat)
  | bsetW64 (pos st : Nat)
  | pack4x16
  | unpk4x16
  deriving DecidableEq, Repr

/-- The mnemonics of R47 (R52, R53). -/
def Instr.mnemonic : Instr → String
  | .absW32 => "ABS.W32"
  | .absW64 => "ABS.W64"
  | .btstW8 _ => "BTST.W8"
  | .btstW16 _ => "BTST.W16"
  | .btstW32 _ => "BTST.W32"
  | .btstW64 _ => "BTST.W64"
  | .bsetW8 _ _ => "BSET.W8"
  | .bsetW16 _ _ => "BSET.W16"
  | .bsetW32 _ _ => "BSET.W32"
  | .bsetW64 _ _ => "BSET.W64"
  | .pack4x16 => "PACK4X16"
  | .unpk4x16 => "UNPK4X16"

end Sys2Proof
end

