-- ==== Sys2Proof/WellFormed.lean ====
section
/-! DEFINITION. Which instruction terms a word of the machine can hold (spec/30_encoding.md R43, R44, R52): a position
and a state fit their 8-bit fields. A position that is at least the width, or a state of 2 or more, IS well formed: R52
says an assembler must not refuse it, since the engine answers it with RangeError. -/

namespace Sys2Proof

/-- The position fits the field `pos`, CTL[15:8] (R43, R52). -/
def posFits (pos : Nat) : Bool := decide (pos ≤ 255)

/-- The state fits the field `st`, CTL[23:16] (R44, R52). -/
def stFits (st : Nat) : Bool := decide (st ≤ 255)

/-- An instruction is well formed when each of its operands fits its field. -/
def Instr.wf : Instr → Bool
  | .absW32 => true
  | .absW64 => true
  | .btstW8 pos => posFits pos
  | .btstW16 pos => posFits pos
  | .btstW32 pos => posFits pos
  | .btstW64 pos => posFits pos
  | .bsetW8 pos st => posFits pos && stFits st
  | .bsetW16 pos st => posFits pos && stFits st
  | .bsetW32 pos st => posFits pos && stFits st
  | .bsetW64 pos st => posFits pos && stFits st
  | .pack4x16 => true
  | .unpk4x16 => true

end Sys2Proof
end

