-- ==== Sys2Proof/Decode.lean ====
section
/-! DEFINITION. The decoder and the encoder (spec/30_encoding.md R38 to R55). The decoder is total on all 2^32 words and
rejects by name; the encoder is the arithmetic of R39. There are no bytes: an instruction is one word on `req_ctl` (R38), and
no byte order exists (spec/20_memory.md R30). -/

namespace Sys2Proof

/-- Field `op`, CTL[3:0] (R39). -/
def ctlOp (ctl : Ctl) : BitVec 4 := ctl.extractLsb' 0 4

/-- Field `wsel`, CTL[5:4] (R39). -/
def ctlWsel (ctl : Ctl) : BitVec 2 := ctl.extractLsb' 4 2

/-- Reserved field `rz0`, CTL[7:6] (R39, R41). -/
def ctlRz0 (ctl : Ctl) : BitVec 2 := ctl.extractLsb' 6 2

/-- Field `pos`, CTL[15:8] (R39, R43). -/
def ctlPos (ctl : Ctl) : BitVec 8 := ctl.extractLsb' 8 8

/-- Field `st`, CTL[23:16] (R39, R44). -/
def ctlSt (ctl : Ctl) : BitVec 8 := ctl.extractLsb' 16 8

/-- Reserved field `rz1`, CTL[31:24] (R39, R41). -/
def ctlRz1 (ctl : Ctl) : BitVec 8 := ctl.extractLsb' 24 8

/-- Why a word spells no instruction: the five classes of R49. A word may be in several; the decoder names the first it
meets in the order of R51 (log entry 13: the class is the model's own and reaches no port). -/
inductive IllegalClass where
  /-- Class 1: `rz0` or `rz1` is not 0. -/
  | reservedBits
  /-- Class 2: `op` is 0 or at least 6. -/
  | noOperation
  /-- Class 3: BTST with `st` not 0. -/
  | btstState
  /-- Class 4: ABS at width 8 or 16, or with `pos` or `st` not 0. -/
  | absFields
  /-- Class 5: PACK4X16 or UNPK4X16 with `wsel`, `pos` or `st` not 0. -/
  | packFields
  deriving DecidableEq, Repr

/-- BTST at the width that `wsel` selects (R42, R47). -/
def btstOf (wsel : BitVec 2) (pos : Nat) : Instr :=
  match wsel.toNat with
  | 0 => .btstW8 pos
  | 1 => .btstW16 pos
  | 2 => .btstW32 pos
  | _ => .btstW64 pos

/-- BSET at the width that `wsel` selects (R42, R47). -/
def bsetOf (wsel : BitVec 2) (pos st : Nat) : Instr :=
  match wsel.toNat with
  | 0 => .bsetW8 pos st
  | 1 => .bsetW16 pos st
  | 2 => .bsetW32 pos st
  | _ => .bsetW64 pos st

/-- The decoder of R51. -/
def decode (ctl : Ctl) : Except IllegalClass Instr :=
  let wsel := ctlWsel ctl
  let pos := ctlPos ctl
  let st := ctlSt ctl
  if ctlRz0 ctl ≠ 0 ∨ ctlRz1 ctl ≠ 0 then .error .reservedBits
  else
    match (ctlOp ctl).toNat with
    | 1 => if st ≠ 0 then .error .btstState else .ok (btstOf wsel pos.toNat)
    | 2 => .ok (bsetOf wsel pos.toNat st.toNat)
    | 3 =>
      if wsel.toNat < 2 ∨ pos ≠ 0 ∨ st ≠ 0 then .error .absFields
      else if wsel = 2 then .ok .absW32 else .ok .absW64
    | 4 => if wsel ≠ 0 ∨ pos ≠ 0 ∨ st ≠ 0 then .error .packFields else .ok .pack4x16
    | 5 => if wsel ≠ 0 ∨ pos ≠ 0 ∨ st ≠ 0 then .error .packFields else .ok .unpk4x16
    | _ => .error .noOperation

/-- The instruction the decoder reads from a word of `nbits` bits (the opcode table's numbering is CTL's own: bit 0 the
least significant; every bit above `nbits` is 0). -/
def decodeTableWord (nbits w : Nat) : Option Instr :=
  match decode (BitVec.ofNat 32 (w % 2 ^ nbits)) with
  | .ok i => some i
  | .error _ => none

/-- The arithmetic of R39, the reserved fields 0 (R41). -/
def encodeFields (op wsel pos st : Nat) : Ctl :=
  BitVec.ofNat 32 (op + 16 * wsel + 256 * pos + 65536 * st)

/-- The word of an instruction (R39, R40, R42, R47); a field it does not use is 0 (R48). -/
def encode : Instr → Ctl
  | .absW32 => encodeFields 3 2 0 0
  | .absW64 => encodeFields 3 3 0 0
  | .btstW8 pos => encodeFields 1 0 pos 0
  | .btstW16 pos => encodeFields 1 1 pos 0
  | .btstW32 pos => encodeFields 1 2 pos 0
  | .btstW64 pos => encodeFields 1 3 pos 0
  | .bsetW8 pos st => encodeFields 2 0 pos st
  | .bsetW16 pos st => encodeFields 2 1 pos st
  | .bsetW32 pos st => encodeFields 2 2 pos st
  | .bsetW64 pos st => encodeFields 2 3 pos st
  | .pack4x16 => encodeFields 4 0 0 0
  | .unpk4x16 => encodeFields 5 0 0 0

/-- A row of the opcode map: a word selects it exactly when `(CTL & mask) = match` (R47). -/
structure OpcodeRow where
  mnemonic : String
  matchBits : Ctl
  maskBits : Ctl
  deriving DecidableEq, Repr

/-- The word selects the row (R47). -/
def OpcodeRow.selects (row : OpcodeRow) (ctl : Ctl) : Bool := (ctl &&& row.maskBits) == row.matchBits

/-- The rows of R47 and of spec/opcode_table.json. The decoder does not read them: that it agrees with them is a claim. -/
def opcodeRows : List OpcodeRow :=
  [⟨"ABS.W32", 0x00000023, 0xFFFFFFFF⟩, ⟨"ABS.W64", 0x00000033, 0xFFFFFFFF⟩,
   ⟨"BTST.W8", 0x00000001, 0xFFFF00FF⟩, ⟨"BTST.W16", 0x00000011, 0xFFFF00FF⟩,
   ⟨"BTST.W32", 0x00000021, 0xFFFF00FF⟩, ⟨"BTST.W64", 0x00000031, 0xFFFF00FF⟩,
   ⟨"BSET.W8", 0x00000002, 0xFF0000FF⟩, ⟨"BSET.W16", 0x00000012, 0xFF0000FF⟩,
   ⟨"BSET.W32", 0x00000022, 0xFF0000FF⟩, ⟨"BSET.W64", 0x00000032, 0xFF0000FF⟩,
   ⟨"PACK4X16", 0x00000004, 0xFFFFFFFF⟩, ⟨"UNPK4X16", 0x00000005, 0xFFFFFFFF⟩]

/-- The instruction reads `req_a` (R45). -/
def Instr.readsA : Instr → Bool
  | .absW32 | .absW64 | .unpk4x16 => true
  | .btstW8 _ | .btstW16 _ | .btstW32 _ | .btstW64 _ => true
  | .bsetW8 _ _ | .bsetW16 _ _ | .bsetW32 _ _ | .bsetW64 _ _ => true
  | .pack4x16 => false

/-- The instruction reads `req_f0` to `req_f3` (R45). -/
def Instr.readsFields : Instr → Bool
  | .pack4x16 => true
  | .absW32 | .absW64 | .unpk4x16 => false
  | .btstW8 _ | .btstW16 _ | .btstW32 _ | .btstW64 _ => false
  | .bsetW8 _ _ | .bsetW16 _ _ | .bsetW32 _ _ | .bsetW64 _ _ => false

/-- The request that an assembler's line stands for (R52): it refuses a position or a state above 255 and nothing else; a
data port the line does not set is driven 0. -/
def assemble (i : Instr) (x : Machine.DataOperands) : Option Machine.Request :=
  match i.wf with
  | false => none
  | true =>
    some
      { ctl := encode i
        a := if i.readsA then x.a else 0
        f0 := if i.readsFields then x.f0 else 0
        f1 := if i.readsFields then x.f1 else 0
        f2 := if i.readsFields then x.f2 else 0
        f3 := if i.readsFields then x.f3 else 0 }

end Sys2Proof
end

