-- ==== Sys2Proof/Config.lean ====
section
/-! DEFINITION. What is fixed for one engine and is no state (spec/00_scope.md R6, R7; spec/10_state.md R27), and the one
free value. -/

namespace Sys2Proof.Config

/-- `LATENCY`: OPEN in the spec, a natural number, default 0, combinational (R7, U10). The default shapes only
`State.reset`; a state's own latency is the length of its pipeline (log entry 2). -/
def latency : Nat := 0

/-- `UNPACK_FIELD_MASK`: 0xFFFF, a constant and no runtime option (R7, R80). -/
def unpackFieldMask : FieldBits := 0xFFFF#16

/-- The width of a field of a packed word (R6, R75). -/
def fieldWidth : Nat := 16

/-- Field i of a packed word starts at bit 16·i (R6, R29, R75). -/
def fieldOffset (i : Nat) : Nat := fieldWidth * i

/-- FREE VALUE: what a pipeline stage holds while its valid bit is 0. After reset the spec leaves it unspecified (R100, U9:
any value, unobservable), and of a cycle without a request it says nothing (log entry 4). No body: nothing can be proved
of its values. -/
opaque freePayload : Nat → Machine.Response

end Sys2Proof.Config
end

