-- ==== Sys2Proof/Machine/Pipeline.lean ====
section
/-! DEFINITION. The response pipeline of an engine with `LATENCY` > 0 (spec/10_state.md R25, R26; spec/70_reset_and_hazards.md
R100, R106). A pipeline is a list of stages, the OLDEST FIRST; its length is `LATENCY`, and 0 stages is the combinational
engine (log entry 2). -/

namespace Sys2Proof.Machine

/-- One stage: a valid bit and a response payload (R25; that the payload is a response and not a request is a DESIGN CHOICE,
safe: log entry 3). -/
structure Stage where
  valid : Bool
  payload : Response
  deriving DecidableEq, Repr

/-- A stage that holds a response. -/
def Stage.full (r : Response) : Stage := { valid := true, payload := r }

/-- A stage without a response; its payload is the `n`-th free value (R100, U9; log entry 4). -/
def Stage.bubble (n : Nat) : Stage := { valid := false, payload := Config.freePayload n }

/-- What a stage puts on the output ports when it reaches them: its response, or the idle values (R24, R100). -/
def Stage.ports (st : Stage) : RspPorts :=
  match st.valid with
  | true => st.payload.ports
  | false => RspPorts.idle

/-- `n` stages without a response, their payloads the free values from `draw` on (R26, R100). -/
def bubbles : Nat → Nat → List Stage
  | 0, _ => []
  | n + 1, draw => Stage.bubble draw :: bubbles n (draw + 1)

/-- One clock cycle: the newest stage enters and the oldest leaves for the output ports. With no stage at all (`LATENCY` =
0) what enters leaves in the same step (R25, R106). -/
def shiftPipe (pipe : List Stage) (new : Stage) : Stage × List Stage :=
  match pipe with
  | [] => (new, [])
  | oldest :: rest => (oldest, rest ++ [new])

end Sys2Proof.Machine
end

