-- ==== Sys2Proof/Machine/State.lean ====
section
/-! DEFINITION. The state of the engine. The spec gives it NO architectural state (spec/10_state.md R15 to R20): what stands
here is what is on its ports, its pipeline where `LATENCY` > 0 (R25), and what the host will drive next. -/

namespace Sys2Proof.Machine

/-- The engine and what the host drives it with.

- `host`: what the host will hold on the input ports in the steps to come, first first. The spec has the host choose a finite
  list of requests (spec/70_reset_and_hazards.md R107); the MODEL's own field (log entry 1).
- `req`: the input ports as the last step sampled them (R21).
- `pipe`: the pipeline, oldest stage first; its length is `LATENCY` (R25).
- `rsp`: the output ports (R22).
- `draws`: how many free payloads have been used; the MODEL's own field (log entry 4). -/
structure State where
  host : List Drive
  req : Drive
  pipe : List Stage
  rsp : RspPorts
  draws : Nat
  deriving DecidableEq, Repr

/-- The ways the engine can stop with a fault: NONE. An error is a response, and `the engine is not stopped, poisoned or stuck
by an error` (spec/60_exceptions.md R85; log entry 12). Safe: no step of the spec's machine stops. -/
inductive Fault where
  deriving DecidableEq, Repr

/-- The ways the model can refuse. -/
inductive Refusal where
  /-- Raised by an arm of `exec` whose instruction has no meaning yet; safe, since nothing follows from it. No arm raises
  it: all twelve instructions have their meaning. -/
  | notModelled (mnemonic : String)
  deriving DecidableEq, Repr

/-- The engine with `latency` pipeline stages right after reset: every valid bit 0, the payloads free, the output ports
idle (R24, R26, R100). What the host drives is not the engine's to reset: no request and nothing to come (DESIGN CHOICE,
log entries 8 and 9). -/
def State.resetAt (latency : Nat) : State :=
  { host := [], req := Drive.idle, pipe := bubbles latency 0, rsp := RspPorts.idle, draws := latency }

/-- The engine right after reset, at the default `LATENCY` = 0 (R7, R26, R100). -/
def State.reset : State := State.resetAt Config.latency

end Sys2Proof.Machine
end

