-- ==== Sys2Proof/Machine/Operands.lean ====
section
/-! DEFINITION. The data operands each operation reads (spec/30_encoding.md R45) and the data results it writes (R46). -/

namespace Sys2Proof.Machine

/-- The W-bit operand on `req_a`: the low W bits, the bits above ignored (R32, R45). -/
def Request.operand (w : Nat) (q : Request) : BitVec w := q.a.setWidth w

/-- The PackedWord on `req_a`, an unsigned 64-bit word (R45, R77, R82). -/
def Request.word (q : Request) : UInt64 := UInt64.ofBitVec q.a

/-- The field operand `a` of PACK4X16, a signed 16-bit number (R21, R45, R82). -/
def Request.field0 (q : Request) : Int16 := Int16.ofBitVec q.f0

/-- The field operand `b` of PACK4X16. -/
def Request.field1 (q : Request) : Int16 := Int16.ofBitVec q.f1

/-- The field operand `c` of PACK4X16. -/
def Request.field2 (q : Request) : Int16 := Int16.ofBitVec q.f2

/-- The field operand `d` of PACK4X16. -/
def Request.field3 (q : Request) : Int16 := Int16.ofBitVec q.f3

/-- `respond Ok(zext_64(r), 0, 0, 0, 0)`: a W-bit result on `rsp_r`, the bits above it 0 and not copies of a sign (R32,
R46). -/
def scalarResult {w : Nat} (r : BitVec w) : Response := .ok (r.setWidth 64) 0 0 0 0

/-- `respond Ok(0, g0, g1, g2, g3)`: four signed fields as their patterns (R46, R77). -/
def fieldsResult (g0 g1 g2 g3 : Int16) : Response := .ok 0 g0.toBitVec g1.toBitVec g2.toBitVec g3.toBitVec

end Sys2Proof.Machine
end

