-- ==== Sys2Proof/Machine/Flags.lean ====
section
/-! DEFINITION. The engine has NO flags and no condition codes: nothing sets one and nothing reads one (spec/10_state.md R18).
What its instructions test are the two validity conditions below (spec/41_bit_query_set.md R61, R62). -/

namespace Sys2Proof.Machine

/-- At width W a position is valid exactly when it is below W; the check reads neither the value nor the state (R61). -/
def posValid (w pos : Nat) : Bool := decide (pos < w)

/-- A state is valid exactly when it is 0 or 1 (R62). -/
def stValid (st : Nat) : Bool := decide (st < 2)

/-- The bound a RangeError about a position reports: W−1, the largest valid position (R61, R87). -/
def posBound (w : Nat) : Nat := w - 1

/-- The bound a RangeError about a state reports (R62, R88). -/
def stBound : Nat := 1

end Sys2Proof.Machine
end

