-- ==== Sys2Proof/Machine/Ops.lean ====
section
/-! DEFINITION. The shared operations: sampling the input ports, raising an error, answering a request, a cycle without a
request, a cycle in reset (spec/10_state.md R21 to R26; spec/60_exceptions.md R85 to R92; spec/70_reset_and_hazards.md R101,
R106). Raising an error IS the engine's whole exception entry: no control transfer, nothing saved, no mode, and so no return
either (R85, R96). -/

namespace Sys2Proof.Machine

/-- `raise RangeError(param, value, bound)`: the offending value zero-extended to 32 bits, and the bound (R87, R88). -/
def raiseRangeError (param : RangeParam) (value bound : Nat) : Response :=
  .rangeError param (BitVec.ofNat 32 value) (BitVec.ofNat 8 bound)

/-- `raise IllegalRequest(ctl)`: the whole instruction word is the offending value (R90). -/
def raiseIllegalRequest (ctl : Ctl) : Response := .illegalRequest ctl

/-- The request the input ports carry (R21). -/
def State.request (s : State) : Request := s.req.request

/-- The host's next drive stands on the input ports. A host that has no more to drive makes no request (log entry 5). -/
def State.sample (s : State) : State :=
  match s.host with
  | [] => { s with req := Drive.idle }
  | d :: rest => { s with host := rest, req := d }

/-- The engine is held in reset: `rst` = 1, on an engine that has a reset input at all, one with `LATENCY` > 0 (R26, R101;
log entry 7). -/
def State.inReset (s : State) : Bool := s.req.rst && !s.pipe.isEmpty

/-- A stage enters the pipeline and the one that leaves it stands on the output ports (R24, R25, R106). -/
def State.enter (s : State) (new : Stage) : State :=
  { s with pipe := (shiftPipe s.pipe new).2, rsp := (shiftPipe s.pipe new).1.ports }

/-- The sampled request gets its one response (R22, R23, R85). -/
def State.respond (s : State) (r : Response) : State := s.enter (Stage.full r)

/-- A cycle without a request: nothing is answered, and what is in flight moves on (R24, R25). -/
def State.idleCycle (s : State) : State :=
  { s.enter (Stage.bubble s.draws) with draws := s.draws + 1 }

/-- A cycle with `rst` = 1: no request is accepted, every valid bit becomes 0, what was in flight is dropped, and
`rsp_valid` = 0 (R26, R101; log entry 6). -/
def State.resetCycle (s : State) : State :=
  { s with pipe := bubbles s.pipe.length s.draws, rsp := RspPorts.idle, draws := s.draws + s.pipe.length }

/-- The response to an illegal word (R49, R90); the data operands are not looked at. -/
def State.answerIllegal (s : State) : State := s.respond (raiseIllegalRequest s.req.reqCtl)

end Sys2Proof.Machine
end

