-- ==== Sys2Proof/Machine/Abs.lean ====
section
/-! DEFINITION. ABS.W32 and ABS.W64 (spec/40_absolute_value.md R56 to R60). -/

namespace Sys2Proof.Machine

/-- The branchless absolute value of R56: the sign mask, OR with 1, multiply, the product reduced modulo 2^W. It wraps at the
minimum; it does not saturate and never fails. -/
def absValue {w : Nat} (x : BitVec w) : BitVec w :=
  let m := x.sshiftRight (w - 1)
  let k := m ||| (1#1).setWidth w
  BitVec.ofInt w (x.toInt * k.toInt)

/-- `ABS(W)` of R56. -/
def absResponse (w : Nat) (q : Request) : Response := scalarResult (absValue (q.operand w))

/-- ABS.W32 (R57). -/
def execAbsW32 (s : State) : Host.Outcome State Fault Refusal := .next (s.respond (absResponse 32 s.request))

/-- ABS.W64 (R58). -/
def execAbsW64 (s : State) : Host.Outcome State Fault Refusal := .next (s.respond (absResponse 64 s.request))

end Sys2Proof.Machine
end

