-- ==== Sys2Proof/Machine/BitQuerySet.lean ====
section
/-! DEFINITION. BTST and BSET at widths 8, 16, 32 and 64 (spec/41_bit_query_set.md R61 to R74): one definition of each,
instantiated at the four widths (R53, R74). -/

namespace Sys2Proof.Machine

/-- Whether the bit of weight 2^p is set (R9, R63). -/
def bitState {w : Nat} (v : BitVec w) (p : Nat) : Bool := v.getLsbD p

/-- The value with bit p forced to the state (R68): the and/or formula, which returns the value unchanged when the bit has
the state already (R73). -/
def setBit {w : Nat} (v : BitVec w) (p st : Nat) : BitVec w :=
  let one := (1#1).setWidth w <<< p
  if st = 1 then v ||| one else v &&& ~~~one

/-- `BTST(W, pos)` of R63. -/
def btstResponse (w pos : Nat) (q : Request) : Response :=
  match posValid w pos with
  | false => raiseRangeError .position pos (posBound w)
  | true => scalarResult (BitVec.ofBool (bitState (q.operand w) pos))

/-- `BSET(W, pos, st)` of R68: the position is checked before the state (R93), and both before anything is computed. -/
def bsetResponse (w pos st : Nat) (q : Request) : Response :=
  match posValid w pos with
  | false => raiseRangeError .position pos (posBound w)
  | true =>
    match stValid st with
    | false => raiseRangeError .state st stBound
    | true => scalarResult (setBit (q.operand w) pos st)

/-- BTST.W8 (R64). -/
def execBtstW8 (pos : Nat) (s : State) : Host.Outcome State Fault Refusal :=
  .next (s.respond (btstResponse 8 pos s.request))

/-- BTST.W16 (R65). -/
def execBtstW16 (pos : Nat) (s : State) : Host.Outcome State Fault Refusal :=
  .next (s.respond (btstResponse 16 pos s.request))

/-- BTST.W32 (R66). -/
def execBtstW32 (pos : Nat) (s : State) : Host.Outcome State Fault Refusal :=
  .next (s.respond (btstResponse 32 pos s.request))

/-- BTST.W64 (R67). -/
def execBtstW64 (pos : Nat) (s : State) : Host.Outcome State Fault Refusal :=
  .next (s.respond (btstResponse 64 pos s.request))

/-- BSET.W8 (R69). -/
def execBsetW8 (pos st : Nat) (s : State) : Host.Outcome State Fault Refusal :=
  .next (s.respond (bsetResponse 8 pos st s.request))

/-- BSET.W16 (R70). -/
def execBsetW16 (pos st : Nat) (s : State) : Host.Outcome State Fault Refusal :=
  .next (s.respond (bsetResponse 16 pos st s.request))

/-- BSET.W32 (R71). -/
def execBsetW32 (pos st : Nat) (s : State) : Host.Outcome State Fault Refusal :=
  .next (s.respond (bsetResponse 32 pos st s.request))

/-- BSET.W64 (R72). -/
def execBsetW64 (pos st : Nat) (s : State) : Host.Outcome State Fault Refusal :=
  .next (s.respond (bsetResponse 64 pos st s.request))

end Sys2Proof.Machine
end

