-- ==== Sys2Proof/Machine/PackUnpack.lean ====
section
/-! DEFINITION. PACK4X16 and UNPK4X16 (spec/42_pack_unpack.md R75 to R82), typed as R82 asks: four `Int16` to one `UInt64`,
and back. -/

namespace Sys2Proof.Machine

/-- One field in its lane: zero-extended, never sign-extended, then shifted to bit 16·i (R75, R76). -/
def lane (x : Int16) (i : Nat) : BitVec 64 := x.toBitVec.setWidth 64 <<< Config.fieldOffset i

/-- `pack4x16(a, b, c, d)`: field 0 lowest (R29, R76). -/
def packWord (a b c d : Int16) : UInt64 :=
  UInt64.ofBitVec (lane a 0 ||| lane b 1 ||| lane c 2 ||| lane d 3)

/-- Field i of a PackedWord: shift, mask with `UNPACK_FIELD_MASK`, reinterpret as signed (R77, R80). -/
def unpackField (word : UInt64) (i : Nat) : Int16 :=
  Int16.ofBitVec (((word.toBitVec >>> Config.fieldOffset i) &&& Config.unpackFieldMask.setWidth 64).setWidth 16)

/-- PACK4X16's response (R76). -/
def packResponse (q : Request) : Response :=
  scalarResult (packWord q.field0 q.field1 q.field2 q.field3).toBitVec

/-- UNPK4X16's response (R77). -/
def unpackResponse (q : Request) : Response :=
  fieldsResult (unpackField q.word 0) (unpackField q.word 1) (unpackField q.word 2) (unpackField q.word 3)

/-- PACK4X16 (R76). -/
def execPack4x16 (s : State) : Host.Outcome State Fault Refusal := .next (s.respond (packResponse s.request))

/-- UNPK4X16 (R77). -/
def execUnpk4x16 (s : State) : Host.Outcome State Fault Refusal := .next (s.respond (unpackResponse s.request))

end Sys2Proof.Machine
end

