-- ==== Sys2Proof/Machine/Dispatch.lean ====
section
/-! DEFINITION. One arm for each constructor of Instr (spec/30_encoding.md R47). -/

namespace Sys2Proof.Machine

def exec (i : Instr) (s : State) : Host.Outcome State Fault Refusal :=
  match i with
  | .absW32 => Sys2Proof.Machine.execAbsW32 s
  | .absW64 => Sys2Proof.Machine.execAbsW64 s
  | .btstW8 pos => Sys2Proof.Machine.execBtstW8 pos s
  | .btstW16 pos => Sys2Proof.Machine.execBtstW16 pos s
  | .btstW32 pos => Sys2Proof.Machine.execBtstW32 pos s
  | .btstW64 pos => Sys2Proof.Machine.execBtstW64 pos s
  | .bsetW8 pos st => Sys2Proof.Machine.execBsetW8 pos st s
  | .bsetW16 pos st => Sys2Proof.Machine.execBsetW16 pos st s
  | .bsetW32 pos st => Sys2Proof.Machine.execBsetW32 pos st s
  | .bsetW64 pos st => Sys2Proof.Machine.execBsetW64 pos st s
  | .pack4x16 => Sys2Proof.Machine.execPack4x16 s
  | .unpk4x16 => Sys2Proof.Machine.execUnpk4x16 s

end Sys2Proof.Machine
end

