-- ==== Sys2Proof/Machine/Step.lean ====
section
/-! DEFINITION. One step: one evaluation of the combinational engine, or one clock cycle of a pipelined one
(spec/00_scope.md R8; spec/10_state.md R23 to R26; spec/30_encoding.md R51). -/

namespace Sys2Proof.Machine

/-- Sample the input ports; in reset drop everything; without a request answer nothing; otherwise decode the word, and run
its instruction or answer ILLEGAL_REQUEST (R23, R24, R51, R90, R101). -/
def step (s : State) : Host.Outcome State Fault Refusal :=
  let s1 := s.sample
  match s1.inReset, s1.req.reqValid with
  | true, _ => .next s1.resetCycle
  | false, false => .next s1.idleCycle
  | false, true =>
    match decode s1.req.reqCtl with
    | .ok i => exec i s1
    | .error _ => .next s1.answerIllegal

/-- `s` with a request for the instruction word `w` as what the host drives next: the engine fetches nothing (R17), the host
presents the word. The drive's data operands stay; a host that had nothing more to drive presents the word with the data
that stands on the ports (log entry 9). -/
def State.withFetchWord (s : State) (nbits w : Nat) : State :=
  let present (d : Drive) : Drive :=
    { d with rst := false, reqValid := true, reqCtl := BitVec.ofNat 32 (w % 2 ^ nbits) }
  match s.host with
  | [] => { s with host := [present s.req] }
  | d :: rest => { s with host := present d :: rest }

end Sys2Proof.Machine
end

