-- ==== Sys2Proof/Machine/Transaction.lean ====
section
/-! DEFINITION. `Exec`, the whole engine as ONE total function of a request (spec/10_state.md R23, spec/30_encoding.md R51),
written from the field arithmetic of R39 and the width formula of R42. The step does not call it and it does not call the
decoder: that the step answers what it says is a claim. -/

namespace Sys2Proof.Machine

/-- The `n` bits of a word from bit `lo` up, by the arithmetic of R39. -/
def bitsAt (ctl : Ctl) (lo n : Nat) : Nat := ctl.toNat / 2 ^ lo % 2 ^ n

/-- W = 8·2^wsel (R42). -/
def widthOf (wsel : Nat) : Nat := 8 * 2 ^ wsel

/-- `Exec` of R23: the generic operation at the width the word selects, or the response to an illegal word (R49, R90). -/
def transact (q : Request) : Response :=
  let op := bitsAt q.ctl 0 4
  let wsel := bitsAt q.ctl 4 2
  let pos := bitsAt q.ctl 8 8
  let st := bitsAt q.ctl 16 8
  if bitsAt q.ctl 6 2 ≠ 0 ∨ bitsAt q.ctl 24 8 ≠ 0 then raiseIllegalRequest q.ctl
  else if op = 1 ∧ st = 0 then btstResponse (widthOf wsel) pos q
  else if op = 2 then bsetResponse (widthOf wsel) pos st q
  else if op = 3 ∧ 2 ≤ wsel ∧ pos = 0 ∧ st = 0 then absResponse (widthOf wsel) q
  else if op = 4 ∧ wsel = 0 ∧ pos = 0 ∧ st = 0 then packResponse q
  else if op = 5 ∧ wsel = 0 ∧ pos = 0 ∧ st = 0 then unpackResponse q
  else raiseIllegalRequest q.ctl

end Sys2Proof.Machine
end

