-- ==== Sys2Proof/Safety.lean ====
section
/-! DEFINITION. The vocabulary of the claims. Every run is safe in the sense that the engine never stops
(spec/60_exceptions.md R85, spec/70_reset_and_hazards.md R105); what a claim speaks of is which response a request gets and
that nothing else is touched. -/

namespace Sys2Proof.Machine

/-- `t` is `s` with the sampled request answered by `r`, and NOTHING ELSE CHANGED: the host's drives, the input ports and the
draws stand as they were; `r` joins the pipeline as its newest stage, and the stage that leaves it stands on the output
ports. With `LATENCY` = 0 that stage is `r`'s own (spec/10_state.md R23, R25; spec/70_reset_and_hazards.md R106). -/
structure Answers (s t : State) (r : Response) : Prop where
  host : t.host = s.host
  req : t.req = s.req
  draws : t.draws = s.draws
  moves : ∃ out : Stage, s.pipe ++ [Stage.full r] = out :: t.pipe ∧ t.rsp = out.ports

/-- What a combinational engine puts on its output ports for a drive (spec/10_state.md R23, R24). -/
def Drive.answer (d : Drive) : RspPorts :=
  match d.reqValid with
  | true => (transact d.request).ports
  | false => RspPorts.idle

/-- A stage that holds a response holds some request's (spec/10_state.md R23, R25). -/
def Stage.IsAnswer (st : Stage) : Prop := st.valid = true → ∃ q : Request, st.payload = transact q

/-- INVARIANT: no response is made up. Each one in the pipeline and the one on the output ports is `Exec` of some request. -/
def State.OnlyAnswers (s : State) : Prop :=
  (∀ st ∈ s.pipe, st.IsAnswer) ∧ (s.rsp = RspPorts.idle ∨ ∃ q : Request, s.rsp = (transact q).ports)

/-- INVARIANT of an engine with `LATENCY` = 0: its output ports are the function of its input ports (spec/10_state.md R24, R26). -/
def State.Combinational (s : State) : Prop := s.pipe = [] → s.rsp = s.req.answer

/-- The output ports are in the ranges the spec gives them (spec/10_state.md R22, R24; spec/60_exceptions.md R84, R91, R92):
the reserved codes never stand there, a parameter is named exactly on a RANGE_ERROR, an error carries no data, a success
no error details, and without a response every port is 0. -/
structure RspPorts.Legal (p : RspPorts) : Prop where
  no_format_error : p.err ≠ ErrKind.formatError.code
  no_base : p.param ≠ ParamKind.base.code
  param_iff : p.param ≠ ParamKind.none.code ↔ p.err = ErrKind.rangeError.code
  error_no_data : p.err ≠ ErrKind.ok.code → p.r = 0 ∧ p.g0 = 0 ∧ p.g1 = 0 ∧ p.g2 = 0 ∧ p.g3 = 0
  ok_no_details : p.err = ErrKind.ok.code → p.errval = 0 ∧ p.errbound = 0
  idle_zero : p.valid = false → p = RspPorts.idle

/-- What stands on the output ports in each of the next `n` steps, until the engine stops (it never does). -/
def outputsOver : Nat → State → List RspPorts
  | 0, _ => []
  | n + 1, s =>
    match step s with
    | .next t => t.rsp :: outputsOver n t
    | .fault _ => []
    | .refused _ => []

/-- The signed reading `s_16` of an unsigned 16-bit number (spec/00_scope.md R11). -/
def signed16 (u : Nat) : Int := if u < 2 ^ 15 then (u : Int) else (u : Int) - 2 ^ 16

/-- The four BTST instructions with their widths (spec/30_encoding.md R47). -/
def btstForms : List (Nat × (Nat → Instr)) :=
  [(8, Instr.btstW8), (16, Instr.btstW16), (32, Instr.btstW32), (64, Instr.btstW64)]

/-- The four BSET instructions with their widths (spec/30_encoding.md R47). -/
def bsetForms : List (Nat × (Nat → Nat → Instr)) :=
  [(8, Instr.bsetW8), (16, Instr.bsetW16), (32, Instr.bsetW32), (64, Instr.bsetW64)]

/-- BTST and BSET of one width together (spec/41_bit_query_set.md R73, R74). -/
def bitForms : List (Nat × (Nat → Instr) × (Nat → Nat → Instr)) :=
  [(8, Instr.btstW8, Instr.bsetW8), (16, Instr.btstW16, Instr.bsetW16), (32, Instr.btstW32, Instr.bsetW32),
   (64, Instr.btstW64, Instr.bsetW64)]

end Sys2Proof.Machine
end

