-- ==== Sys2Proof/Certificates/Slice0/Obligations.lean ====
section
/-! DEFINITION. The statements for the provers. An instruction's statement says its result, its frame (`Answers`: nothing but
the pipeline and the output ports changes) and that it completes, for every state and so for every `LATENCY`. -/

open Sys2Proof Sys2Proof.Machine

/-- 40_absolute_value.md R57: ABS.W32 reads `req_a[31:0]` signed and answers its magnitude; at the minimum it answers the
operand itself. The upper half of `rsp_r` is 0. -/
def Obligations.AbsW32AnswersMagnitude : Prop :=
  ∀ s : State, ∃ (t : State) (r : BitVec 32), exec .absW32 s = .next t ∧ Answers s t (.ok (r.setWidth 64) 0 0 0 0) ∧
    r.toInt = (if (s.req.reqA.setWidth 32).toInt = -2 ^ 31 then -2 ^ 31
      else ((s.req.reqA.setWidth 32).toInt.natAbs : Int))

/-- 40_absolute_value.md R58: ABS.W64 reads all of `req_a` signed and answers its magnitude; at the minimum the operand. -/
def Obligations.AbsW64AnswersMagnitude : Prop :=
  ∀ s : State, ∃ (t : State) (r : BitVec 64), exec .absW64 s = .next t ∧ Answers s t (.ok r 0 0 0 0) ∧
    r.toInt = (if s.req.reqA.toInt = -2 ^ 63 then -2 ^ 63 else (s.req.reqA.toInt.natAbs : Int))

/-- 40_absolute_value.md R59 (a): at every width the product of R56 is the conditional negation and is ((x ^ m) − m). -/
def Obligations.AbsProductIsConditionalNegation : Prop :=
  ∀ (w : Nat) (x : BitVec w), 0 < w →
    absValue x = (if x.msb then -x else x) ∧
    absValue x = (x ^^^ x.sshiftRight (w - 1)) - x.sshiftRight (w - 1)

/-- 40_absolute_value.md R59 (c): ABS of its own result, whatever stands above it on `req_a`, is that result again. -/
def Obligations.AbsIsIdempotent : Prop :=
  (∀ s : State, ∃ (t : State) (r : BitVec 32), exec .absW32 s = .next t ∧ Answers s t (.ok (r.setWidth 64) 0 0 0 0) ∧
    ∀ u : State, u.req.reqA.setWidth 32 = r →
      ∃ v : State, exec .absW32 u = .next v ∧ Answers u v (.ok (r.setWidth 64) 0 0 0 0)) ∧
  (∀ s : State, ∃ (t : State) (r : BitVec 64), exec .absW64 s = .next t ∧ Answers s t (.ok r 0 0 0 0) ∧
    ∀ u : State, u.req.reqA = r → ∃ v : State, exec .absW64 u = .next v ∧ Answers u v (.ok r 0 0 0 0))

/-- 41_bit_query_set.md R63 to R67: BTST at a valid position answers 1 exactly when the bit of weight 2^p of `req_a` is
set, else 0. -/
def Obligations.BtstAnswersBit : Prop :=
  ∀ f ∈ btstForms, ∀ (p : Nat) (s : State), p < f.1 →
    ∃ t : State, exec (f.2 p) s = .next t ∧
      Answers s t (.ok (if s.req.reqA.toNat / 2 ^ p % 2 = 1 then 1 else 0) 0 0 0 0)

/-- 41_bit_query_set.md R61 and 60_exceptions.md R86, R87: BTST at a position of at least W answers a RangeError about the
position, which carries the position and the bound W−1 and no data; the value is not read. -/
def Obligations.BtstInvalidPositionAnswersRangeError : Prop :=
  ∀ f ∈ btstForms, ∀ (p : Nat) (s : State), f.1 ≤ p →
    ∃ (t : State) (r : Response), exec (f.2 p) s = .next t ∧ Answers s t r ∧
      r.ports = { valid := true, err := 1, param := 1, errval := BitVec.ofNat 32 p, errbound := BitVec.ofNat 8 (f.1 - 1),
                  r := 0, g0 := 0, g1 := 0, g2 := 0, g3 := 0 }

/-- 41_bit_query_set.md R68 to R72: BSET at a valid position and state answers the value with bit p equal to the state and
every other bit below W as it was; the bits from W up are 0. -/
def Obligations.BsetForcesOneBit : Prop :=
  ∀ f ∈ bsetForms, ∀ (p st : Nat) (s : State), p < f.1 → st < 2 →
    ∃ (t : State) (r : DataWord), exec (f.2 p st) s = .next t ∧ Answers s t (.ok r 0 0 0 0) ∧
      ∀ k : Nat, r.getLsbD k = if k = p then decide (st = 1) else (decide (k < f.1) && s.req.reqA.getLsbD k)

/-- 60_exceptions.md R87, R88, R93: a BSET reports an invalid position whatever its state is, and an invalid state only at
a valid position; each error carries its offending value and its bound, and no data. -/
def Obligations.BsetReportsPositionBeforeState : Prop :=
  ∀ f ∈ bsetForms, ∀ (p st : Nat) (s : State),
    (f.1 ≤ p → ∃ (t : State) (r : Response), exec (f.2 p st) s = .next t ∧ Answers s t r ∧
      r.ports = { valid := true, err := 1, param := 1, errval := BitVec.ofNat 32 p, errbound := BitVec.ofNat 8 (f.1 - 1),
                  r := 0, g0 := 0, g1 := 0, g2 := 0, g3 := 0 }) ∧
    (p < f.1 → 2 ≤ st → ∃ (t : State) (r : Response), exec (f.2 p st) s = .next t ∧ Answers s t r ∧
      r.ports = { valid := true, err := 1, param := 2, errval := BitVec.ofNat 32 st, errbound := 1,
                  r := 0, g0 := 0, g1 := 0, g2 := 0, g3 := 0 })

/-- 41_bit_query_set.md R73: BSET of the state that BTST reports answers the value unchanged; and BSET applied again, with
the same position and state, to its own result answers that result. -/
def Obligations.BsetOfQueriedStateIsNoOp : Prop :=
  ∀ f ∈ bitForms, ∀ (p : Nat) (s : State), p < f.1 →
    (∃ (t : State) (b : Nat), exec (f.2.1 p) s = .next t ∧ Answers s t (.ok (BitVec.ofNat 64 b) 0 0 0 0) ∧ b < 2 ∧
      ∃ u : State, exec (f.2.2 p b) s = .next u ∧
        Answers s u (.ok (BitVec.ofNat 64 (s.req.reqA.toNat % 2 ^ f.1)) 0 0 0 0)) ∧
    ∀ st : Nat, st < 2 → ∃ (t : State) (r : DataWord), exec (f.2.2 p st) s = .next t ∧ Answers s t (.ok r 0 0 0 0) ∧
      ∀ u : State, u.req.reqA = r → ∃ v : State, exec (f.2.2 p st) u = .next v ∧ Answers u v (.ok r 0 0 0 0)

/-- 41_bit_query_set.md R74: BTST of the result of BSET at the same position answers the state that was set, and at any other
valid position what it answers of the value before. -/
def Obligations.BtstAfterBsetIsConsistent : Prop :=
  ∀ f ∈ bitForms, ∀ (p st : Nat) (s : State), p < f.1 → st < 2 →
    ∃ (t : State) (r : DataWord), exec (f.2.2 p st) s = .next t ∧ Answers s t (.ok r 0 0 0 0) ∧
      ∀ u : State, u.req.reqA = r →
        (∃ v : State, exec (f.2.1 p) u = .next v ∧ Answers u v (.ok (BitVec.ofNat 64 st) 0 0 0 0)) ∧
        ∀ k : Nat, k < f.1 → k ≠ p → ∃ (v v' : State) (b : DataWord),
          exec (f.2.1 k) u = .next v ∧ Answers u v (.ok b 0 0 0 0) ∧
          exec (f.2.1 k) s = .next v' ∧ Answers s v' (.ok b 0 0 0 0)

/-- 42_pack_unpack.md R76: PACK4X16 answers (a mod 2^16) + (b mod 2^16)·2^16 + (c mod 2^16)·2^32 + (d mod 2^16)·2^48 of its
signed fields. -/
def Obligations.PackAnswersFieldSum : Prop :=
  ∀ s : State, ∃ (t : State) (r : DataWord), exec .pack4x16 s = .next t ∧ Answers s t (.ok r 0 0 0 0) ∧
    (r.toNat : Int) = s.req.reqF0.toInt % 2 ^ 16 + s.req.reqF1.toInt % 2 ^ 16 * 2 ^ 16 +
      s.req.reqF2.toInt % 2 ^ 16 * 2 ^ 32 + s.req.reqF3.toInt % 2 ^ 16 * 2 ^ 48

/-- 42_pack_unpack.md R77: UNPK4X16 answers the four lanes of `req_a`, each read signed. -/
def Obligations.UnpackAnswersSignedLanes : Prop :=
  ∀ s : State, ∃ (t : State) (g0 g1 g2 g3 : FieldBits), exec .unpk4x16 s = .next t ∧ Answers s t (.ok 0 g0 g1 g2 g3) ∧
    g0.toInt = signed16 (s.req.reqA.toNat % 2 ^ 16) ∧
    g1.toInt = signed16 (s.req.reqA.toNat / 2 ^ 16 % 2 ^ 16) ∧
    g2.toInt = signed16 (s.req.reqA.toNat / 2 ^ 32 % 2 ^ 16) ∧
    g3.toInt = signed16 (s.req.reqA.toNat / 2 ^ 48)

/-- 42_pack_unpack.md R78: UNPK4X16 of the `rsp_r` of PACK4X16 answers the four fields, bit for bit. -/
def Obligations.UnpackAfterPackRestoresFields : Prop :=
  ∀ s : State, ∃ (t : State) (r : DataWord), exec .pack4x16 s = .next t ∧ Answers s t (.ok r 0 0 0 0) ∧
    ∀ u : State, u.req.reqA = r → ∃ v : State, exec .unpk4x16 u = .next v ∧
      Answers u v (.ok 0 s.req.reqF0 s.req.reqF1 s.req.reqF2 s.req.reqF3)

/-- 42_pack_unpack.md R79: PACK4X16 of the four `rsp_g` of UNPK4X16 answers the word. -/
def Obligations.PackAfterUnpackRestoresWord : Prop :=
  ∀ s : State, ∃ (t : State) (g0 g1 g2 g3 : FieldBits), exec .unpk4x16 s = .next t ∧ Answers s t (.ok 0 g0 g1 g2 g3) ∧
    ∀ u : State, u.req.reqF0 = g0 → u.req.reqF1 = g1 → u.req.reqF2 = g2 → u.req.reqF3 = g3 →
      ∃ v : State, exec .pack4x16 u = .next v ∧ Answers u v (.ok s.req.reqA 0 0 0 0)

/-- 42_pack_unpack.md R82: as typed functions, packing and unpacking are inverse to each other. -/
def Obligations.TypedPackIsBijective : Prop :=
  (∀ a b c d : Int16, unpackField (packWord a b c d) 0 = a ∧ unpackField (packWord a b c d) 1 = b ∧
    unpackField (packWord a b c d) 2 = c ∧ unpackField (packWord a b c d) 3 = d) ∧
  ∀ w : UInt64, packWord (unpackField w 0) (unpackField w 1) (unpackField w 2) (unpackField w 3) = w

/-- 30_encoding.md R45 and 20_memory.md R32: what an instruction does not read does not reach its response. Two states whose
requests agree on the bits that R45 lists get the SAME response, whatever else differs between them. -/
def Obligations.UnreadOperandsDoNotReachResponse : Prop :=
  ∀ (i : Instr) (s u : State),
    (match i with
      | .btstW8 _ | .bsetW8 _ _ => s.req.reqA.setWidth 8 = u.req.reqA.setWidth 8
      | .btstW16 _ | .bsetW16 _ _ => s.req.reqA.setWidth 16 = u.req.reqA.setWidth 16
      | .absW32 | .btstW32 _ | .bsetW32 _ _ => s.req.reqA.setWidth 32 = u.req.reqA.setWidth 32
      | .absW64 | .btstW64 _ | .bsetW64 _ _ | .unpk4x16 => s.req.reqA = u.req.reqA
      | .pack4x16 => s.req.reqF0 = u.req.reqF0 ∧ s.req.reqF1 = u.req.reqF1 ∧ s.req.reqF2 = u.req.reqF2 ∧
          s.req.reqF3 = u.req.reqF3) →
    ∃ (r : Response) (t v : State), exec i s = .next t ∧ Answers s t r ∧ exec i u = .next v ∧ Answers u v r

/-- 60_exceptions.md R86: the RangeError about a bit position comes from a BTST or a BSET whose position is at least its W, and
from nothing else; it depends on neither the value nor the state. -/
def Obligations.PositionErrorComesFromInvalidPosition : Prop :=
  ∀ (i : Instr) (s : State), ∃ (t : State) (r : Response), exec i s = .next t ∧ Answers s t r ∧
    ((∃ (value : BitVec 32) (bound : BitVec 8), r = .rangeError .position value bound) ↔
      match i with
      | .absW32 | .absW64 | .pack4x16 | .unpk4x16 => False
      | .btstW8 p | .bsetW8 p _ => 8 ≤ p
      | .btstW16 p | .bsetW16 p _ => 16 ≤ p
      | .btstW32 p | .bsetW32 p _ => 32 ≤ p
      | .btstW64 p | .bsetW64 p _ => 64 ≤ p)

/-- 60_exceptions.md R88: the RangeError about a bit state comes from a BSET whose position is valid and whose state is 2 or
more, and from nothing else; it carries the state and the bound 1. -/
def Obligations.StateErrorComesFromInvalidState : Prop :=
  ∀ (i : Instr) (s : State), ∃ (t : State) (r : Response), exec i s = .next t ∧ Answers s t r ∧
    let causedBy (w p st : Nat) : Prop :=
      ((∃ (value : BitVec 32) (bound : BitVec 8), r = .rangeError .state value bound) ↔ p < w ∧ 2 ≤ st) ∧
      (p < w → 2 ≤ st → r.ports =
        { valid := true, err := 1, param := 2, errval := BitVec.ofNat 32 st, errbound := 1,
          r := 0, g0 := 0, g1 := 0, g2 := 0, g3 := 0 })
    match i with
    | .bsetW8 p st => causedBy 8 p st
    | .bsetW16 p st => causedBy 16 p st
    | .bsetW32 p st => causedBy 32 p st
    | .bsetW64 p st => causedBy 64 p st
    | .absW32 | .absW64 | .pack4x16 | .unpk4x16 | .btstW8 _ | .btstW16 _ | .btstW32 _ | .btstW64 _ =>
      ∀ (value : BitVec 32) (bound : BitVec 8), r ≠ .rangeError .state value bound

/-- 60_exceptions.md R89: when each instruction succeeds; a word that spells an instruction is never answered
ILLEGAL_REQUEST. -/
def Obligations.ResponseKindOfEachInstruction : Prop :=
  ∀ (i : Instr) (s : State), ∃ (t : State) (r : Response), exec i s = .next t ∧ Answers s t r ∧
    r.kind ≠ .illegalRequest ∧
    match i with
    | .absW32 | .absW64 | .pack4x16 | .unpk4x16 => r.kind = .ok
    | .btstW8 p => r.kind = .ok ↔ p < 8
    | .btstW16 p => r.kind = .ok ↔ p < 16
    | .btstW32 p => r.kind = .ok ↔ p < 32
    | .btstW64 p => r.kind = .ok ↔ p < 64
    | .bsetW8 p st => r.kind = .ok ↔ p < 8 ∧ st < 2
    | .bsetW16 p st => r.kind = .ok ↔ p < 16 ∧ st < 2
    | .bsetW32 p st => r.kind = .ok ↔ p < 32 ∧ st < 2
    | .bsetW64 p st => r.kind = .ok ↔ p < 64 ∧ st < 2

/-- 60_exceptions.md R83, R87, R88: a RangeError carries an offending value that its field can hold and that is above its
bound; the bound is W−1 of a width, or 1. -/
def Obligations.RangeErrorDetailsAreConsistent : Prop :=
  ∀ (q : Request) (param : RangeParam) (value : BitVec 32) (bound : BitVec 8),
    transact q = .rangeError param value bound →
      bound.toNat < value.toNat ∧ value.toNat ≤ 255 ∧
      (param = .position → bound ∈ ([7, 15, 31, 63] : List (BitVec 8)) ∧ value.toNat = bitsAt q.ctl 8 8) ∧
      (param = .state → bound = 1 ∧ value.toNat = bitsAt q.ctl 16 8)

/-- A step runs the decoded instruction (10_state.md R23, 30_encoding.md R51): what the step adds around `exec` is that the
host's next drive stands on the input ports. -/
def Obligations.StepRunsDecodedInstruction : Prop :=
  ∀ (s : State) (d : Drive) (rest : List Drive) (i : Instr), s.host = d :: rest → d.reqValid = true →
    (d.rst = false ∨ s.pipe = []) → decode d.reqCtl = .ok i →
    step s = exec i { s with host := rest, req := d }

/-- 60_exceptions.md R90: a request for a word that spells no instruction is answered ILLEGAL_REQUEST with the whole word,
whatever its data operands; nothing else changes and the engine goes on. -/
def Obligations.IllegalWordAnswersIllegalRequest : Prop :=
  ∀ (s : State) (d : Drive) (rest : List Drive) (c : IllegalClass), s.host = d :: rest → d.reqValid = true →
    (d.rst = false ∨ s.pipe = []) → decode d.reqCtl = .error c →
    ∃ (t : State) (r : Response), step s = .next t ∧ Answers { s with host := rest, req := d } t r ∧
      r.ports = { valid := true, err := 3, param := 0, errval := d.reqCtl, errbound := 0,
                  r := 0, g0 := 0, g1 := 0, g2 := 0, g3 := 0 }

/-- 40_absolute_value.md R60: a word with `op` = 3 and `wsel` = 0 or 1 is answered ILLEGAL_REQUEST: there is no ABS at width
8 or 16, no RangeError, and no result at another width. -/
def Obligations.AbsAtNarrowWidthIsIllegal : Prop :=
  ∀ (s : State) (d : Drive) (rest : List Drive), s.host = d :: rest → d.reqValid = true →
    (d.rst = false ∨ s.pipe = []) → bitsAt d.reqCtl 0 4 = 3 → bitsAt d.reqCtl 4 2 < 2 →
    ∃ t : State, step s = .next t ∧ Answers { s with host := rest, req := d } t (.illegalRequest d.reqCtl)

/-- 60_exceptions.md R93: exactly one response, chosen in this order: the illegal word, the position, the state, success. -/
def Obligations.ErrorsAreRanked : Prop :=
  ∀ (s : State) (d : Drive) (rest : List Drive), s.host = d :: rest → d.reqValid = true →
    (d.rst = false ∨ s.pipe = []) →
    let op := bitsAt d.reqCtl 0 4
    let w := widthOf (bitsAt d.reqCtl 4 2)
    let pos := bitsAt d.reqCtl 8 8
    let st := bitsAt d.reqCtl 16 8
    ∃ (t : State) (r : Response), step s = .next t ∧ Answers { s with host := rest, req := d } t r ∧
      match decode d.reqCtl with
      | .error _ => r = .illegalRequest d.reqCtl
      | .ok _ =>
        if (op = 1 ∨ op = 2) ∧ w ≤ pos then r = .rangeError .position (BitVec.ofNat 32 pos) (BitVec.ofNat 8 (w - 1))
        else if op = 2 ∧ 2 ≤ st then r = .rangeError .state (BitVec.ofNat 32 st) 1
        else r.kind = .ok

/-- 10_state.md R24: without a request no response is made: what is in flight moves on, and at `LATENCY` = 0 every output
port is 0. That R24's idle values stand, at `LATENCY` > 0, where the response would have come out is the model's reading (log
entry 5). -/
def Obligations.NoRequestNoResponse : Prop :=
  ∀ s : State, s.sample.req.reqValid = false → s.sample.inReset = false →
    ∃ (t : State) (out new : Stage), step s = .next t ∧ t.host = s.host.tail ∧ t.req = s.sample.req ∧
      new.valid = false ∧ s.pipe ++ [new] = out :: t.pipe ∧ t.rsp = out.ports ∧
      (s.pipe = [] → t.rsp = RspPorts.idle)

/-- 70_reset_and_hazards.md R101: in a cycle with `rst` = 1, on an engine with `LATENCY` > 0, no request is accepted, no
response stands on the ports, and nothing that was in flight stays. That the ports are idle in that very cycle is the model's
reading (log entry 6). -/
def Obligations.ResetCycleDropsWhatIsInFlight : Prop :=
  ∀ (s : State) (d : Drive) (rest : List Drive), s.host = d :: rest → d.rst = true → s.pipe ≠ [] →
    ∃ t : State, step s = .next t ∧ t.host = rest ∧ t.req = d ∧ t.rsp = RspPorts.idle ∧
      t.pipe.length = s.pipe.length ∧ ∀ st ∈ t.pipe, st.valid = false

/-- 70_reset_and_hazards.md R100: right after reset, at every `LATENCY`, every valid bit is 0 and the output ports are idle; at
the default nothing is in the pipeline. That no drive is to come and no request stands is the model's choice (log 8, 9). -/
def Obligations.ResetLeavesNothingInFlight : Prop :=
  (∀ n : Nat, (State.resetAt n).pipe.length = n ∧ (∀ st ∈ (State.resetAt n).pipe, st.valid = false) ∧
    (State.resetAt n).rsp = RspPorts.idle) ∧
  State.reset.pipe = [] ∧ State.reset.rsp = RspPorts.idle

/-- 30_encoding.md R49: a word is illegal exactly when it matches no row of R47, and exactly when it is in one of the five
classes. -/
def Obligations.IllegalWordsAreTheFiveClasses : Prop :=
  ∀ ctl : Ctl,
    ((∃ c, decode ctl = .error c) ↔ ∀ row ∈ opcodeRows, row.selects ctl = false) ∧
    ((∃ c, decode ctl = .error c) ↔
      (bitsAt ctl 6 2 ≠ 0 ∨ bitsAt ctl 24 8 ≠ 0) ∨
      (bitsAt ctl 0 4 = 0 ∨ 6 ≤ bitsAt ctl 0 4) ∨
      (bitsAt ctl 0 4 = 1 ∧ bitsAt ctl 16 8 ≠ 0) ∨
      (bitsAt ctl 0 4 = 3 ∧ (bitsAt ctl 4 2 < 2 ∨ bitsAt ctl 8 8 ≠ 0 ∨ bitsAt ctl 16 8 ≠ 0)) ∨
      ((bitsAt ctl 0 4 = 4 ∨ bitsAt ctl 0 4 = 5) ∧
        (bitsAt ctl 4 2 ≠ 0 ∨ bitsAt ctl 8 8 ≠ 0 ∨ bitsAt ctl 16 8 ≠ 0)))

/-- 30_encoding.md R41: a nonzero reserved field makes the word illegal whatever its other fields hold. -/
def Obligations.ReservedBitsMakeWordIllegal : Prop :=
  ∀ ctl : Ctl, ctl.extractLsb' 6 2 ≠ 0 ∨ ctl.extractLsb' 24 8 ≠ 0 → ∃ c, decode ctl = .error c

/-- 30_encoding.md R47: a word decodes to an instruction of a row exactly when `(CTL & mask) = match`, and no word matches
two rows. -/
def Obligations.DecoderAgreesWithOpcodeRows : Prop :=
  (∀ row ∈ opcodeRows, ∀ ctl : Ctl,
    row.selects ctl = true ↔ ∃ i : Instr, decode ctl = .ok i ∧ i.mnemonic = row.mnemonic) ∧
  ∀ row ∈ opcodeRows, ∀ row' ∈ opcodeRows, ∀ ctl : Ctl,
    row.selects ctl = true → row'.selects ctl = true → row = row'

/-- 30_encoding.md R47: exactly 263172 words select an instruction. -/
def Obligations.LegalWordsNumber263172 : Prop :=
  ∃ words : List Ctl, words.Nodup ∧ words.length = 263172 ∧ ∀ ctl : Ctl, ctl ∈ words ↔ ∃ i : Instr, decode ctl = .ok i

/-- Decode of encode, for EVERY well-formed instruction with every operand at every value its field admits (30_encoding.md
R39, R43, R44, R51). -/
def Obligations.DecodeOfEncodeIsIdentity : Prop :=
  ∀ i : Instr, i.wf = true → decode (encode i) = .ok i

/-- Encode of decode: each legal word has one meaning, and that meaning's one word is it (30_encoding.md R39, R48, R51). -/
def Obligations.EncodeOfDecodeIsIdentity : Prop :=
  ∀ (ctl : Ctl) (i : Instr), decode ctl = .ok i → encode i = ctl ∧ i.wf = true

/-- 30_encoding.md R55 and 95_test_vectors.md 3.8: some words, written out from the encoding, decode as the spec says. -/
def Obligations.WorkedWordsDecode : Prop :=
  decode 0x00000023 = .ok .absW32 ∧ decode 0x00000033 = .ok .absW64 ∧
  decode 0x00000C11 = .ok (.btstW16 12) ∧ decode 0x00003F31 = .ok (.btstW64 63) ∧
  decode 0x00010502 = .ok (.bsetW8 5 1) ∧ decode 0x00001F22 = .ok (.bsetW32 31 0) ∧
  decode 0x00000004 = .ok .pack4x16 ∧ decode 0x00000005 = .ok .unpk4x16

/-- 30_encoding.md R52: an assembled line's request decodes to its instruction, and the assembler refuses exactly a position or
a state above 255. The data port a line does not set is 0, and the response is what any other value there would give. -/
def Obligations.AssembledLineRunsItsInstruction : Prop :=
  ∀ (i : Instr) (x : DataOperands),
    (assemble i x = none ↔ i.wf = false) ∧
    ∀ q : Request, assemble i x = some q → decode q.ctl = .ok i ∧
      transact q = transact { ctl := q.ctl, a := x.a, f0 := x.f0, f1 := x.f1, f2 := x.f2, f3 := x.f3 }

/-- 10_state.md R23, R25: every request that is accepted, legal or not, is answered by `Exec` of that request alone, and the
step changes nothing else. `transact` is `Exec` written over the bare fields of the word. -/
def Obligations.StepAnswersExecOfRequest : Prop :=
  ∀ (s : State) (d : Drive) (rest : List Drive), s.host = d :: rest → d.reqValid = true →
    (d.rst = false ∨ s.pipe = []) →
    ∃ t : State, step s = .next t ∧ Answers { s with host := rest, req := d } t (transact d.request)

/-- 10_state.md R23, 20_memory.md R35, 60_exceptions.md R85: two engines with any histories behind them give the same request
the same response. -/
def Obligations.ResponseDependsOnRequestAlone : Prop :=
  ∀ (s u : State) (d e : Drive) (rest rest' : List Drive), s.host = d :: rest → u.host = e :: rest' →
    d.reqValid = true → e.reqValid = true → d.request = e.request →
    (d.rst = false ∨ s.pipe = []) → (e.rst = false ∨ u.pipe = []) →
    ∃ (r : Response) (t v : State), step s = .next t ∧ Answers { s with host := rest, req := d } t r ∧
      step u = .next v ∧ Answers { u with host := rest', req := e } v r

/-- 70_reset_and_hazards.md R106, 10_state.md R25: over ANY run without reset, from any state, the output ports show first what
was in flight and then the answers to the drives, in their order, one each, `LATENCY` cycles late. Two things here are the
model's reading: that a drive without a request shows R24's idle values `LATENCY` cycles later (log entry 5), and how the cycles
of `LATENCY` are counted (log entry 16). -/
def Obligations.RunAnswersInOrderAfterLatency : Prop :=
  ∀ (s : State) (ds rest : List Drive), s.host = ds ++ rest → (∀ d ∈ ds, d.rst = false) →
    outputsOver ds.length s = (s.pipe.map Stage.ports ++ ds.map Drive.answer).take ds.length

/-- 70_reset_and_hazards.md R101: a cycle with `rst` = 1, then ANY run without reset, on an engine with `LATENCY` > 0: the
output ports are idle in the reset cycle and in the `LATENCY` cycles after it (nothing that was in flight, and no request
presented in reset, is ever answered), and then show the answers to the drives that followed. Three things here are the model's
reading: that the ports are idle in the reset cycle itself (log entry 6), that a later drive without a request shows R24's idle
values `LATENCY` cycles later (log entry 5), and how the cycles of `LATENCY` are counted (log entry 16). -/
def Obligations.ResetDropsThenRunStartsAfresh : Prop :=
  ∀ (s : State) (d : Drive) (ds rest : List Drive), s.host = d :: (ds ++ rest) → d.rst = true → s.pipe ≠ [] →
    (∀ e ∈ ds, e.rst = false) →
    outputsOver (ds.length + 1) s =
      (RspPorts.idle :: (List.replicate s.pipe.length RspPorts.idle ++ ds.map Drive.answer)).take (ds.length + 1)

/-- 70_reset_and_hazards.md R105, 60_exceptions.md R85: every step of every state answers a next state: no request hangs or
stops the engine. The latency does not change; the host's list moves on by one drive (the model's own field, log entry 1). -/
def Obligations.EveryStepAnswersNext : Prop :=
  ∀ s : State, ∃ t : State, step s = .next t ∧ t.pipe.length = s.pipe.length ∧ t.host = s.host.tail

/-- 10_state.md R22, R24 and 60_exceptions.md R91, R92: after every step, from ANY state, the output ports are legal. -/
def Obligations.OutputPortsAreLegalAfterEveryStep : Prop :=
  ∀ s t : State, step s = .next t → t.rsp.Legal

/-- 10_state.md R24, R26: after every step of an engine with `LATENCY` = 0 its output ports are `Exec` of its input ports. -/
def Obligations.CombinationalAfterEveryStep : Prop :=
  ∀ s t : State, step s = .next t → t.Combinational

/-- INVARIANT (10_state.md R23): every step keeps it that no response is made up. -/
def Obligations.StepKeepsOnlyAnswers : Prop :=
  ∀ s t : State, s.OnlyAnswers → step s = .next t → t.OnlyAnswers

/-- The invariants hold right after reset, at every `LATENCY`. That no request stands on the input ports then is the model's
choice (log entry 8). -/
def Obligations.ResetMeetsInvariants : Prop :=
  ∀ n : Nat, (State.resetAt n).OnlyAnswers ∧ (State.resetAt n).Combinational
end

