-- ==== Sys2Proof/Laws/Decode.lean ====
section
/-! SUPPORT. The decoder's fields as the arithmetic of spec/30_encoding.md R39. -/

namespace Sys2Proof.Machine

/-- A field cut out of a word is the word divided and reduced. -/
theorem toNat_extract (ctl : Ctl) (lo n : Nat) : (ctl.extractLsb' lo n).toNat = bitsAt ctl lo n := by
  simp [bitsAt, BitVec.extractLsb'_toNat, Nat.shiftRight_eq_div_pow]

@[simp] theorem ctlOp_toNat (ctl : Ctl) : (ctlOp ctl).toNat = bitsAt ctl 0 4 := toNat_extract ctl 0 4
@[simp] theorem ctlWsel_toNat (ctl : Ctl) : (ctlWsel ctl).toNat = bitsAt ctl 4 2 := toNat_extract ctl 4 2
@[simp] theorem ctlRz0_toNat (ctl : Ctl) : (ctlRz0 ctl).toNat = bitsAt ctl 6 2 := toNat_extract ctl 6 2
@[simp] theorem ctlPos_toNat (ctl : Ctl) : (ctlPos ctl).toNat = bitsAt ctl 8 8 := toNat_extract ctl 8 8
@[simp] theorem ctlSt_toNat (ctl : Ctl) : (ctlSt ctl).toNat = bitsAt ctl 16 8 := toNat_extract ctl 16 8
@[simp] theorem ctlRz1_toNat (ctl : Ctl) : (ctlRz1 ctl).toNat = bitsAt ctl 24 8 := toNat_extract ctl 24 8

/-- A field is 0 exactly when its number is. -/
theorem eq_zero_iff_toNat {n : Nat} (x : BitVec n) : x = 0 ↔ x.toNat = 0 := by
  rw [← BitVec.toNat_inj]
  simp

/-- A field of n bits is below 2^n. -/
theorem bitsAt_lt (ctl : Ctl) (lo n : Nat) : bitsAt ctl lo n < 2 ^ n := Nat.mod_lt _ (Nat.two_pow_pos n)

/-- The decoder over the numbers of the fields. -/
theorem decode_eq_bitsAt (ctl : Ctl) :
    decode ctl =
      if bitsAt ctl 6 2 ≠ 0 ∨ bitsAt ctl 24 8 ≠ 0 then .error .reservedBits
      else
        match bitsAt ctl 0 4 with
        | 1 =>
          if bitsAt ctl 16 8 ≠ 0 then .error .btstState else .ok (btstOf (ctlWsel ctl) (bitsAt ctl 8 8))
        | 2 => .ok (bsetOf (ctlWsel ctl) (bitsAt ctl 8 8) (bitsAt ctl 16 8))
        | 3 =>
          if bitsAt ctl 4 2 < 2 ∨ bitsAt ctl 8 8 ≠ 0 ∨ bitsAt ctl 16 8 ≠ 0 then .error .absFields
          else if bitsAt ctl 4 2 = 2 then .ok .absW32 else .ok .absW64
        | 4 =>
          if bitsAt ctl 4 2 ≠ 0 ∨ bitsAt ctl 8 8 ≠ 0 ∨ bitsAt ctl 16 8 ≠ 0 then .error .packFields
          else .ok .pack4x16
        | 5 =>
          if bitsAt ctl 4 2 ≠ 0 ∨ bitsAt ctl 8 8 ≠ 0 ∨ bitsAt ctl 16 8 ≠ 0 then .error .packFields
          else .ok .unpk4x16
        | _ => .error .noOperation := by
  have hw : ctlWsel ctl = 2 ↔ bitsAt ctl 4 2 = 2 := by
    rw [← ctlWsel_toNat, ← BitVec.toNat_inj]
    rfl
  simp only [decode, ne_eq, eq_zero_iff_toNat, ctlOp_toNat, ctlWsel_toNat, ctlRz0_toNat, ctlPos_toNat, ctlSt_toNat,
    ctlRz1_toNat, hw] <;> rfl

end Sys2Proof.Machine
end

