-- ==== Sys2Proof/Laws/State.lean ====
section
/-! SUPPORT. One lemma for each field under each update of the state, so that no later proof unfolds a record update. -/

namespace Sys2Proof.Machine

section Enter
variable (s : State) (new : Stage) (r : Response)

@[simp] theorem State.enter_host : (s.enter new).host = s.host := rfl
@[simp] theorem State.enter_req : (s.enter new).req = s.req := rfl
@[simp] theorem State.enter_draws : (s.enter new).draws = s.draws := rfl
@[simp] theorem State.enter_pipe : (s.enter new).pipe = (shiftPipe s.pipe new).2 := rfl
@[simp] theorem State.enter_rsp : (s.enter new).rsp = (shiftPipe s.pipe new).1.ports := rfl

@[simp] theorem State.respond_host : (s.respond r).host = s.host := rfl
@[simp] theorem State.respond_req : (s.respond r).req = s.req := rfl
@[simp] theorem State.respond_draws : (s.respond r).draws = s.draws := rfl
@[simp] theorem State.respond_pipe : (s.respond r).pipe = (shiftPipe s.pipe (Stage.full r)).2 := rfl
@[simp] theorem State.respond_rsp : (s.respond r).rsp = (shiftPipe s.pipe (Stage.full r)).1.ports := rfl

end Enter

section Cycle
variable (s : State)

@[simp] theorem State.idleCycle_host : s.idleCycle.host = s.host := rfl
@[simp] theorem State.idleCycle_req : s.idleCycle.req = s.req := rfl
@[simp] theorem State.idleCycle_draws : s.idleCycle.draws = s.draws + 1 := rfl
@[simp] theorem State.idleCycle_pipe : s.idleCycle.pipe = (shiftPipe s.pipe (Stage.bubble s.draws)).2 := rfl
@[simp] theorem State.idleCycle_rsp : s.idleCycle.rsp = (shiftPipe s.pipe (Stage.bubble s.draws)).1.ports := rfl

@[simp] theorem State.resetCycle_host : s.resetCycle.host = s.host := rfl
@[simp] theorem State.resetCycle_req : s.resetCycle.req = s.req := rfl
@[simp] theorem State.resetCycle_draws : s.resetCycle.draws = s.draws + s.pipe.length := rfl
@[simp] theorem State.resetCycle_pipe : s.resetCycle.pipe = bubbles s.pipe.length s.draws := rfl
@[simp] theorem State.resetCycle_rsp : s.resetCycle.rsp = RspPorts.idle := rfl

end Cycle

section Sample
variable {s : State} {d : Drive} {rest : List Drive}

/-- The host's next drive stands on the input ports. -/
theorem State.sample_cons (h : s.host = d :: rest) : s.sample = { s with host := rest, req := d } := by
  simp [State.sample, h]

/-- A host that has no more to drive makes no request. -/
theorem State.sample_nil (h : s.host = []) : s.sample = { s with req := Drive.idle } := by
  simp [State.sample, h]

@[simp] theorem State.sample_host (s : State) : s.sample.host = s.host.tail := by
  unfold State.sample
  split <;> simp_all

@[simp] theorem State.sample_pipe (s : State) : s.sample.pipe = s.pipe := by
  unfold State.sample
  split <;> rfl

@[simp] theorem State.sample_rsp (s : State) : s.sample.rsp = s.rsp := by
  unfold State.sample
  split <;> rfl

@[simp] theorem State.sample_draws (s : State) : s.sample.draws = s.draws := by
  unfold State.sample
  split <;> rfl

end Sample

section Reset
variable (n : Nat)

@[simp] theorem State.resetAt_host : (State.resetAt n).host = [] := rfl
@[simp] theorem State.resetAt_req : (State.resetAt n).req = Drive.idle := rfl
@[simp] theorem State.resetAt_pipe : (State.resetAt n).pipe = bubbles n 0 := rfl
@[simp] theorem State.resetAt_rsp : (State.resetAt n).rsp = RspPorts.idle := rfl
@[simp] theorem State.resetAt_draws : (State.resetAt n).draws = n := rfl

end Reset

end Sys2Proof.Machine
end

