-- ==== Sys2Proof/Laws/Ops.lean ====
section
/-! SUPPORT. For each shared operation, what it does, said once: the pipeline's move, a response, a cycle without a request, a
cycle in reset. -/

namespace Sys2Proof.Machine

@[simp] theorem Stage.full_ports (r : Response) : (Stage.full r).ports = r.ports := rfl
@[simp] theorem Stage.bubble_valid (n : Nat) : (Stage.bubble n).valid = false := rfl
@[simp] theorem Stage.bubble_ports (n : Nat) : (Stage.bubble n).ports = RspPorts.idle := rfl

/-- What leaves the pipeline and what stays in it are what stood in it and what entered, in order. -/
theorem shiftPipe_moves (pipe : List Stage) (new : Stage) :
    pipe ++ [new] = (shiftPipe pipe new).1 :: (shiftPipe pipe new).2 := by
  cases pipe <;> rfl

/-- The pipeline keeps its length, which is `LATENCY`. -/
@[simp] theorem shiftPipe_length (pipe : List Stage) (new : Stage) :
    (shiftPipe pipe new).2.length = pipe.length := by
  cases pipe <;> simp [shiftPipe]

/-- Every stage after a move, the leaving one too, stood in the pipeline or entered it. -/
theorem shiftPipe_mem {pipe : List Stage} {new st : Stage}
    (h : st = (shiftPipe pipe new).1 ∨ st ∈ (shiftPipe pipe new).2) : st ∈ pipe ∨ st = new := by
  have hm : st ∈ pipe ++ [new] := by
    rw [shiftPipe_moves]
    simpa using h
  simpa using hm

@[simp] theorem bubbles_length (n draw : Nat) : (bubbles n draw).length = n := by
  induction n generalizing draw with
  | zero => rfl
  | succ n ih => simp [bubbles, ih]

/-- No stage of an emptied pipeline holds a response. -/
theorem bubbles_valid {n draw : Nat} {st : Stage} (h : st ∈ bubbles n draw) : st.valid = false := by
  induction n generalizing draw with
  | zero => simp [bubbles] at h
  | succ n ih =>
    rcases List.mem_cons.mp h with rfl | h
    · rfl
    · exact ih h

/-- A response answers the sampled request and touches nothing else. -/
theorem State.respond_answers (s : State) (r : Response) : Answers s (s.respond r) r :=
  { host := rfl, req := rfl, draws := rfl, moves := ⟨_, shiftPipe_moves s.pipe (Stage.full r), rfl⟩ }

/-- With `LATENCY` = 0 an answer stands on the output ports in the same step. -/
theorem Answers.rsp_of_combinational {s t : State} {r : Response} (h : Answers s t r) (hp : s.pipe = []) :
    t.rsp = r.ports ∧ t.pipe = [] := by
  obtain ⟨out, hmove, hrsp⟩ := h.moves
  rw [hp, List.nil_append, List.cons.injEq] at hmove
  rw [hrsp, ← hmove.1, ← hmove.2]
  exact ⟨rfl, rfl⟩

/-- An answer keeps the latency. -/
theorem Answers.pipe_length {s t : State} {r : Response} (h : Answers s t r) : t.pipe.length = s.pipe.length := by
  obtain ⟨out, hmove, -⟩ := h.moves
  simpa using (congrArg List.length hmove).symm

end Sys2Proof.Machine
end

