-- ==== Sys2Proof/Laws/Exec.lean ====
section
/-! SUPPORT. What running an instruction can do, said once: it answers a next state, and that state is the old one with one
response given. -/

namespace Sys2Proof.Machine

/-- The response of an instruction to a request. -/
def responseOf (i : Instr) (q : Request) : Response :=
  match i with
  | .absW32 => absResponse 32 q
  | .absW64 => absResponse 64 q
  | .btstW8 pos => btstResponse 8 pos q
  | .btstW16 pos => btstResponse 16 pos q
  | .btstW32 pos => btstResponse 32 pos q
  | .btstW64 pos => btstResponse 64 pos q
  | .bsetW8 pos st => bsetResponse 8 pos st q
  | .bsetW16 pos st => bsetResponse 16 pos st q
  | .bsetW32 pos st => bsetResponse 32 pos st q
  | .bsetW64 pos st => bsetResponse 64 pos st q
  | .pack4x16 => packResponse q
  | .unpk4x16 => unpackResponse q

/-- Running an instruction is giving its response to the sampled request. -/
theorem exec_eq_respond (i : Instr) (s : State) : exec i s = .next (s.respond (responseOf i s.request)) := by
  cases i <;> rfl

/-- The state that running an instruction answers. -/
theorem exec_next {i : Instr} {s t : State} (h : exec i s = .next t) :
    t = s.respond (responseOf i s.request) := by
  rw [exec_eq_respond] at h
  exact (Host.Outcome.next.inj h).symm

/-- BTST at a valid position. -/
theorem btstResponse_valid {w pos : Nat} (q : Request) (h : pos < w) :
    btstResponse w pos q = scalarResult (BitVec.ofBool ((q.operand w).getLsbD pos)) := by
  simp [btstResponse, posValid, bitState, h]

/-- BTST at an invalid position. -/
theorem btstResponse_invalid {w pos : Nat} (q : Request) (h : w ≤ pos) :
    btstResponse w pos q = raiseRangeError .position pos (w - 1) := by
  simp [btstResponse, posValid, posBound, Nat.not_lt.mpr h]

/-- BSET at a valid position and state. -/
theorem bsetResponse_valid {w pos st : Nat} (q : Request) (hp : pos < w) (hs : st < 2) :
    bsetResponse w pos st q = scalarResult (setBit (q.operand w) pos st) := by
  simp [bsetResponse, posValid, stValid, hp, hs]

/-- BSET at an invalid position, whatever the state. -/
theorem bsetResponse_invalid_pos {w pos : Nat} (st : Nat) (q : Request) (h : w ≤ pos) :
    bsetResponse w pos st q = raiseRangeError .position pos (w - 1) := by
  simp [bsetResponse, posValid, posBound, Nat.not_lt.mpr h]

/-- BSET at a valid position with an invalid state. -/
theorem bsetResponse_invalid_st {w pos st : Nat} (q : Request) (hp : pos < w) (hs : 2 ≤ st) :
    bsetResponse w pos st q = raiseRangeError .state st 1 := by
  simp [bsetResponse, posValid, stValid, stBound, hp, Nat.not_lt.mpr hs]

/-- Bit k of the value that BSET makes, for a position inside the value. -/
theorem getLsbD_setBit {w : Nat} (v : BitVec w) {p st : Nat} (hp : p < w) (k : Nat) :
    (setBit v p st).getLsbD k = if k = p then decide (st = 1) else v.getLsbD k := by
  have hv : ∀ k, w ≤ k → v.getLsbD k = false := fun k hk => BitVec.getLsbD_of_ge v k hk
  by_cases hk : k < w
  · by_cases hkp : k = p
    · subst hkp
      by_cases hst : st = 1 <;> simp [setBit, hst, hk]
    · have hbit : ((1#1).setWidth w <<< p).getLsbD k = false := by
        simp only [BitVec.getLsbD_shiftLeft, BitVec.getLsbD_setWidth, BitVec.getLsbD_one, hk]
        by_cases hlt : k < p <;> simp [hlt]
        omega
      by_cases hst : st = 1 <;>
        simp only [setBit, hst, hkp, if_true, if_false, BitVec.getLsbD_or, BitVec.getLsbD_and, BitVec.getLsbD_not, hbit, hk] <;>
        simp
  · have hkp : k ≠ p := by omega
    rw [if_neg hkp, hv k (by omega), BitVec.getLsbD_of_ge _ k (by omega)]

end Sys2Proof.Machine
end

