-- ==== Sys2Proof/Laws/PerInstr.lean ====
section
/-! SUPPORT. What holds of every instruction as syntax, one lemma for each constructor. -/

namespace Sys2Proof.Laws.EncodedRow

/-- The word of a well-formed instruction selects the opcode row of its own mnemonic (spec/30_encoding.md R47). -/
def Statement (i : Instr) : Prop :=
  i.wf = true → ∃ row ∈ opcodeRows, row.mnemonic = i.mnemonic ∧ row.selects (encode i) = true

/-- A bit from 32 up of a number below 2^32 is 0. -/
theorem testBit_high {n k : Nat} (hn : n < 2 ^ 32) (hk : ¬k < 32) : n.testBit k = false :=
  Nat.testBit_lt_two_pow (lt_of_lt_of_le hn (Nat.pow_le_pow_right (by omega) (by omega)))

/-- The free field `pos` does not reach the bits that select a BTST row. -/
theorem select_btst {wsel pos : Nat} (hw : wsel < 4) (hp : pos ≤ 255) :
    encodeFields 1 wsel pos 0 &&& 0xFFFF00FF = BitVec.ofNat 32 (1 + 16 * wsel) := by
  apply BitVec.eq_of_toNat_eq
  simp only [encodeFields, BitVec.toNat_and, BitVec.toNat_ofNat]
  apply Nat.eq_of_testBit_eq
  intro k
  rw [Nat.testBit_and]
  by_cases hk : k < 32
  · interval_cases k <;> simp [Nat.testBit, Nat.shiftRight_eq_div_pow] <;> omega
  · rw [testBit_high (Nat.mod_lt _ (by decide)) hk, testBit_high (Nat.mod_lt _ (by decide)) hk, Bool.false_and]

/-- The free fields `pos` and `st` do not reach the bits that select a BSET row. -/
theorem select_bset {wsel pos st : Nat} (hw : wsel < 4) (hp : pos ≤ 255) (hs : st ≤ 255) :
    encodeFields 2 wsel pos st &&& 0xFF0000FF = BitVec.ofNat 32 (2 + 16 * wsel) := by
  apply BitVec.eq_of_toNat_eq
  simp only [encodeFields, BitVec.toNat_and, BitVec.toNat_ofNat]
  apply Nat.eq_of_testBit_eq
  intro k
  rw [Nat.testBit_and]
  by_cases hk : k < 32
  · interval_cases k <;> simp [Nat.testBit, Nat.shiftRight_eq_div_pow] <;> omega
  · rw [testBit_high (Nat.mod_lt _ (by decide)) hk, testBit_high (Nat.mod_lt _ (by decide)) hk, Bool.false_and]

theorem absW32 : Statement .absW32 := fun _ => ⟨opcodeRows[0], by decide, rfl, by decide⟩

theorem absW64 : Statement .absW64 := fun _ => ⟨opcodeRows[1], by decide, rfl, by decide⟩

theorem btstW8 (pos : Nat) : Statement (.btstW8 pos) := fun h =>
  ⟨opcodeRows[2], by decide, rfl, beq_iff_eq.mpr (select_btst (wsel := 0) (by decide) (of_decide_eq_true h))⟩

theorem btstW16 (pos : Nat) : Statement (.btstW16 pos) := fun h =>
  ⟨opcodeRows[3], by decide, rfl, beq_iff_eq.mpr (select_btst (wsel := 1) (by decide) (of_decide_eq_true h))⟩

theorem btstW32 (pos : Nat) : Statement (.btstW32 pos) := fun h =>
  ⟨opcodeRows[4], by decide, rfl, beq_iff_eq.mpr (select_btst (wsel := 2) (by decide) (of_decide_eq_true h))⟩

theorem btstW64 (pos : Nat) : Statement (.btstW64 pos) := fun h =>
  ⟨opcodeRows[5], by decide, rfl, beq_iff_eq.mpr (select_btst (wsel := 3) (by decide) (of_decide_eq_true h))⟩

theorem bsetW8 (pos st : Nat) : Statement (.bsetW8 pos st) := fun h =>
  ⟨opcodeRows[6], by decide, rfl, beq_iff_eq.mpr (select_bset (wsel := 0) (by decide)
    (of_decide_eq_true (Bool.and_eq_true_iff.mp h).1) (of_decide_eq_true (Bool.and_eq_true_iff.mp h).2))⟩

theorem bsetW16 (pos st : Nat) : Statement (.bsetW16 pos st) := fun h =>
  ⟨opcodeRows[7], by decide, rfl, beq_iff_eq.mpr (select_bset (wsel := 1) (by decide)
    (of_decide_eq_true (Bool.and_eq_true_iff.mp h).1) (of_decide_eq_true (Bool.and_eq_true_iff.mp h).2))⟩

theorem bsetW32 (pos st : Nat) : Statement (.bsetW32 pos st) := fun h =>
  ⟨opcodeRows[8], by decide, rfl, beq_iff_eq.mpr (select_bset (wsel := 2) (by decide)
    (of_decide_eq_true (Bool.and_eq_true_iff.mp h).1) (of_decide_eq_true (Bool.and_eq_true_iff.mp h).2))⟩

theorem bsetW64 (pos st : Nat) : Statement (.bsetW64 pos st) := fun h =>
  ⟨opcodeRows[9], by decide, rfl, beq_iff_eq.mpr (select_bset (wsel := 3) (by decide)
    (of_decide_eq_true (Bool.and_eq_true_iff.mp h).1) (of_decide_eq_true (Bool.and_eq_true_iff.mp h).2))⟩

theorem pack4x16 : Statement .pack4x16 := fun _ => ⟨opcodeRows[10], by decide, rfl, by decide⟩

theorem unpk4x16 : Statement .unpk4x16 := fun _ => ⟨opcodeRows[11], by decide, rfl, by decide⟩

end Sys2Proof.Laws.EncodedRow
end

