-- ==== Sys2Proof/Laws/Step.lean ====
section
/-! SUPPORT. What a step does, said once, case by case, and the inversion that later proofs cite. -/

namespace Sys2Proof.Machine

variable {s t : State}

/-- A cycle in reset. -/
theorem step_of_inReset (h : s.sample.inReset = true) : step s = .next s.sample.resetCycle := by
  simp only [step, h]

/-- A cycle without a request. -/
theorem step_of_idle (h : s.sample.inReset = false) (hv : s.sample.req.reqValid = false) :
    step s = .next s.sample.idleCycle := by
  simp only [step, h, hv]

/-- A request for an instruction. -/
theorem step_of_legal {i : Instr} (h : s.sample.inReset = false) (hv : s.sample.req.reqValid = true)
    (hd : decode s.sample.req.reqCtl = .ok i) : step s = exec i s.sample := by
  simp only [step, h, hv, hd]

/-- A request for a word that spells no instruction. -/
theorem step_of_illegal {c : IllegalClass} (h : s.sample.inReset = false) (hv : s.sample.req.reqValid = true)
    (hd : decode s.sample.req.reqCtl = .error c) :
    step s = .next (s.sample.respond (.illegalRequest s.sample.req.reqCtl)) := by
  simp only [step, h, hv, hd]
  rfl

/-- Everything a step can do: drop what is in flight, answer nothing, run the instruction, or answer an illegal word. -/
theorem step_cases (h : step s = .next t) :
    (s.sample.inReset = true ∧ t = s.sample.resetCycle) ∨
    (s.sample.inReset = false ∧ s.sample.req.reqValid = false ∧ t = s.sample.idleCycle) ∨
    (s.sample.inReset = false ∧ s.sample.req.reqValid = true ∧
      ((∃ i, decode s.sample.req.reqCtl = .ok i ∧ t = s.sample.respond (responseOf i s.sample.request)) ∨
       (∃ c, decode s.sample.req.reqCtl = .error c ∧
          t = s.sample.respond (.illegalRequest s.sample.req.reqCtl)))) := by
  cases hr : s.sample.inReset with
  | true =>
    rw [step_of_inReset hr] at h
    exact .inl ⟨rfl, (Host.Outcome.next.inj h).symm⟩
  | false =>
    cases hv : s.sample.req.reqValid with
    | false =>
      rw [step_of_idle hr hv] at h
      exact .inr (.inl ⟨rfl, rfl, (Host.Outcome.next.inj h).symm⟩)
    | true =>
      cases hd : decode s.sample.req.reqCtl with
      | ok i =>
        rw [step_of_legal hr hv hd] at h
        exact .inr (.inr ⟨rfl, rfl, .inl ⟨i, rfl, exec_next h⟩⟩)
      | error c =>
        rw [step_of_illegal hr hv hd] at h
        exact .inr (.inr ⟨rfl, rfl, .inr ⟨c, rfl, (Host.Outcome.next.inj h).symm⟩⟩)

/-- An engine is held in reset only by `rst`, and only if it has a pipeline. -/
theorem inReset_cons {d : Drive} {rest : List Drive} (h : s.host = d :: rest) :
    s.sample.inReset = (d.rst && !s.pipe.isEmpty) := by
  rw [State.sample_cons h]
  rfl

end Sys2Proof.Machine
end

