-- ==== Sys2Proof/Tests/Slice0.lean ====
section
/-! SUPPORT. Our own tests. Expected values are the spec's (spec/95_test_vectors.md and the worked examples of the rules);
each test names its source. Then one witness for each statement that has hypotheses. -/

namespace Sys2Proof.Tests

open Sys2Proof Sys2Proof.Machine

/-! ## Well-formedness: each check refuses an ill-formed term, and refuses no operand that only the engine rejects (R52) -/

theorem test_wf_refuses_wide_position : (Instr.btstW8 256).wf = false := by decide
theorem test_wf_refuses_wide_position_bset : (Instr.bsetW64 256 1).wf = false := by decide
theorem test_wf_refuses_wide_state : (Instr.bsetW8 0 256).wf = false := by decide
theorem test_wf_accepts_invalid_position_and_state : (Instr.bsetW8 255 255).wf = true := by decide
theorem test_assemble_refuses_wide_position : assemble (.btstW16 256) ⟨0, 0, 0, 0, 0⟩ = none := by decide
theorem test_assemble_drives_unset_ports_zero :
    assemble (.btstW8 2) ⟨0x0B, 1, 2, 3, 4⟩ = some ⟨0x00000201, 0x0B, 0, 0, 0, 0⟩ := by decide

/-! ## Decoding: one word for each constructor, written from the pattern of R39 and R47 (95_test_vectors.md 3.8) -/

theorem test_decode_absW32 : decode 0b00000000000000000000000000100011 = .ok .absW32 := by decide
theorem test_decode_absW64 : decode 0b00000000000000000000000000110011 = .ok .absW64 := by decide
theorem test_decode_btstW8 : decode 0b00000000000000000000010100000001 = .ok (.btstW8 5) := by decide
theorem test_decode_btstW16 : decode 0b00000000000000000000110000010001 = .ok (.btstW16 12) := by decide
theorem test_decode_btstW32 : decode 0b00000000000000000001111000100001 = .ok (.btstW32 30) := by decide
theorem test_decode_btstW64 : decode 0b00000000000000000010101000110001 = .ok (.btstW64 42) := by decide
theorem test_decode_bsetW8 : decode 0b00000000000000010000010100000010 = .ok (.bsetW8 5 1) := by decide
theorem test_decode_bsetW16 : decode 0b00000000000000000000110000010010 = .ok (.bsetW16 12 0) := by decide
theorem test_decode_bsetW32 : decode 0b00000000000000010001111000100010 = .ok (.bsetW32 30 1) := by decide
theorem test_decode_bsetW64 : decode 0b00000000000000000010101000110010 = .ok (.bsetW64 42 0) := by decide
theorem test_decode_pack : decode 0b00000000000000000000000000000100 = .ok .pack4x16 := by decide
theorem test_decode_unpk : decode 0b00000000000000000000000000000101 = .ok .unpk4x16 := by decide

/-- 30_encoding.md R55. -/
theorem test_encode_worked : encode (.btstW64 63) = 0x00003F31 ∧ encode (.bsetW32 31 0) = 0x00001F22 ∧
    encode (.bsetW16 16 1) = 0x00011012 := by decide

/-- 95_test_vectors.md 3.7, one word of each class. -/
theorem test_decode_illegal : decode 0x80000002 = .error .reservedBits ∧ decode 0 = .error .noOperation ∧
    decode 0x00FF0801 = .error .btstState ∧ decode 0x00000013 = .error .absFields ∧
    decode 0x00000034 = .error .packFields := by decide

theorem test_decodeTableWord : decodeTableWord 32 0x00012032 = some (.bsetW64 32 1) ∧ decodeTableWord 32 6 = none := by
  decide

/-! ## One step -/

/-- The engine right after reset, one request to come. -/
def ask (ctl : Ctl) (a : DataWord) (f0 f1 f2 f3 : FieldBits) : State :=
  { State.reset with host := [(⟨ctl, a, f0, f1, f2, f3⟩ : Request).drive] }

/-- The output ports after a step. -/
def portsAfter (o : Host.Outcome State Fault Refusal) : Option RspPorts :=
  match o with
  | .next t => some t.rsp
  | .fault _ => none
  | .refused _ => none

/-- The error kind and the scalar result after a step on `req_a`. -/
def scalarAfter (ctl : Ctl) (a : DataWord) : Option (BitVec 2 × DataWord) :=
  (portsAfter (step (ask ctl a 0 0 0 0))).map fun p => (p.err, p.r)

/-- The error details after a step. -/
def errorAfter (ctl : Ctl) (a : DataWord) : Option (BitVec 2 × BitVec 2 × BitVec 32 × BitVec 8 × DataWord) :=
  (portsAfter (step (ask ctl a 0 0 0 0))).map fun p => (p.err, p.param, p.errval, p.errbound, p.r)

/-- 95_test_vectors.md 3.1: the minimum wraps at 32 bits, the upper half ignored. -/
theorem test_absW32_minimum : scalarAfter 0x23 0xDEADBEEF80000000 = some (0, 0x0000000080000000) := by decide
/-- 95_test_vectors.md 3.1. -/
theorem test_absW32_negative : scalarAfter 0x23 0x123456789ABCDEF0 = some (0, 0x0000000065432110) := by decide
/-- 95_test_vectors.md 3.2. -/
theorem test_absW64_minimum : scalarAfter 0x33 0x8000000000000000 = some (0, 0x8000000000000000) := by decide
/-- 95_test_vectors.md 3.2. -/
theorem test_absW64_negative : scalarAfter 0x33 0xFFFFFFFF00000000 = some (0, 0x0000000100000000) := by decide
/-- 95_test_vectors.md 1.1, the source's own. -/
theorem test_btstW8_clear : scalarAfter 0x00000201 0x0B = some (0, 0) := by decide
/-- 95_test_vectors.md 3.3: bit 8 of the bus is 1 and is not reported. -/
theorem test_btstW8_position_is_width : errorAfter 0x00000801 0xFFFF = some (1, 1, 8, 7, 0) := by decide
/-- 95_test_vectors.md 3.3. -/
theorem test_btstW16_last : scalarAfter 0x00000F11 0x8000 = some (0, 1) := by decide
/-- 95_test_vectors.md 3.3. -/
theorem test_btstW32_worked : scalarAfter 0x00001421 0x00100000 = some (0, 1) := by decide
/-- 95_test_vectors.md 3.3. -/
theorem test_btstW64_worked : scalarAfter 0x00002031 0x0000000100000000 = some (0, 1) := by decide
/-- 95_test_vectors.md 3.3. -/
theorem test_btstW64_largest_position : errorAfter 0x0000FF31 0xFFFFFFFFFFFFFFFF = some (1, 1, 255, 63, 0) := by decide
/-- 95_test_vectors.md 3.4: upper bits dropped. -/
theorem test_bsetW8_clear : scalarAfter 0x00000002 0xABCDEF01 = some (0, 0) := by decide
/-- 95_test_vectors.md 3.4: both invalid, the position is reported. -/
theorem test_bsetW8_both_invalid : errorAfter 0x00020802 0x0F = some (1, 1, 8, 7, 0) := by decide
/-- 95_test_vectors.md 3.4. -/
theorem test_bsetW16_set : scalarAfter 0x00010F12 0x0001 = some (0, 0x8001) := by decide
/-- 95_test_vectors.md 3.4. -/
theorem test_bsetW32_clear : scalarAfter 0x00001022 0xFFFFFFFFFFFFFFFF = some (0, 0x00000000FFFEFFFF) := by decide
/-- 95_test_vectors.md 3.4. -/
theorem test_bsetW64_set : scalarAfter 0x00012032 0x00000000FFFFFFFF = some (0, 0x00000001FFFFFFFF) := by decide
/-- 95_test_vectors.md 3.4: valid position, invalid state. -/
theorem test_bsetW64_invalid_state : errorAfter 0x00023F32 0 = some (1, 2, 2, 1, 0) := by decide

/-- 95_test_vectors.md 3.5, mixed signs; `req_a` is not read. -/
theorem test_pack_mixed :
    (portsAfter (step (ask 0x00000004 0xFFFFFFFFFFFFFFFF 0xFFFE 0x0003 0x8000 0x7FFF))).map RspPorts.r =
      some 0x7FFF80000003FFFE := by decide

/-- 95_test_vectors.md 3.6. -/
theorem test_unpk_mixed :
    (portsAfter (step (ask 0x00000005 0x7FFF80000003FFFE 0 0 0 0))).map (fun p => (p.g0, p.g1, p.g2, p.g3)) =
      some (0xFFFE, 0x0003, 0x8000, 0x7FFF) := by decide

/-- 95_test_vectors.md 3.7: an illegal word wins over a position error. -/
theorem test_illegal_word : errorAfter 0x00FF0801 0x55 = some (3, 0, 0x00FF0801, 0, 0) := by decide

/-- 10_state.md R24: reset with nothing to come is idle. -/
theorem test_idle_step : portsAfter (step State.reset) = some RspPorts.idle := by decide

/-- The presented word is the one that runs next (log entry 9). -/
theorem test_withFetchWord :
    (portsAfter (step (State.reset.withFetchWord 32 0x00010702))).map RspPorts.r = some 0x80 := by decide

/-- 70_reset_and_hazards.md R106 with one stage: the request of this step stands in the pipeline, the earlier one's response on
the ports. -/
theorem test_pipelined_step :
    (portsAfter (step { ask 0x00000701 0x80 0 0 0 0 with pipe := [Stage.full (.ok 7 0 0 0 0)] })).map RspPorts.r =
      some 7 := by decide

/-! ## Witnesses: what meets the hypotheses of each statement that has some -/

/-- A pipelined engine with a response in flight and two requests to come. -/
def busy : State :=
  { ask 0x00000701 0x80 0 0 0 0 with
    host := [(⟨0x00000701, 0x80, 0, 0, 0, 0⟩ : Request).drive, (⟨0x00000023, 5, 0, 0, 0, 0⟩ : Request).drive]
    pipe := [Stage.full (transact ⟨0x00000033, 5, 0, 0, 0, 0⟩), Stage.bubble 0] }

theorem witness_AbsProductIsConditionalNegation : 0 < 32 := by decide
theorem witness_AbsIsIdempotent_W32 :
    (ask 0x23 0xFFFFFFFB80000000 0 0 0 0).sample.req.reqA.setWidth 32 = (0x80000000 : BitVec 32) := by decide
theorem witness_AbsIsIdempotent_W64 :
    (ask 0x33 0x8000000000000000 0 0 0 0).sample.req.reqA = (0x8000000000000000 : BitVec 64) := by decide
/-- The last valid position of each width. -/
theorem witness_BtstAnswersBit : ∀ f ∈ btstForms, f.1 - 1 < f.1 := by simp [btstForms]
/-- The first invalid position of each width, and the largest a word can hold. -/
theorem witness_BtstInvalidPositionAnswersRangeError : ∀ f ∈ btstForms, f.1 ≤ f.1 ∧ f.1 ≤ 255 := by simp [btstForms]
theorem witness_BsetForcesOneBit : ∀ f ∈ bsetForms, f.1 - 1 < f.1 ∧ (0 : Nat) < 2 ∧ (1 : Nat) < 2 := by simp [bsetForms]
/-- The clauses meet at the position W (the first) and at the position W−1 with the state 2 (the second). -/
theorem witness_BsetReportsPositionBeforeState : ∀ f ∈ bsetForms, f.1 ≤ f.1 ∧ (f.1 - 1 < f.1 ∧ (2 : Nat) ≤ 2) := by
  simp [bsetForms]
theorem witness_BsetOfQueriedStateIsNoOp : ∀ f ∈ bitForms, f.1 - 1 < f.1 ∧ (1 : Nat) < 2 := by simp [bitForms]
theorem witness_BtstAfterBsetIsConsistent :
    ∀ f ∈ bitForms, f.1 - 1 < f.1 ∧ (1 : Nat) < 2 ∧ 0 < f.1 ∧ 0 ≠ f.1 - 1 := by simp [bitForms]
theorem witness_UnpackAfterPackRestoresFields :
    (ask 0x5 0x7FFF80000003FFFE 0 0 0 0).sample.req.reqA = 0x7FFF80000003FFFE := by decide
theorem witness_PackAfterUnpackRestoresWord :
    (ask 0x4 0 0xFFFE 3 0x8000 0x7FFF).sample.req.reqF0 = 0xFFFE ∧ (ask 0x4 0 0xFFFE 3 0x8000 0x7FFF).sample.req.reqF1 = 3 ∧
    (ask 0x4 0 0xFFFE 3 0x8000 0x7FFF).sample.req.reqF2 = 0x8000 ∧
    (ask 0x4 0 0xFFFE 3 0x8000 0x7FFF).sample.req.reqF3 = 0x7FFF := by decide
/-- Two requests that agree on the low byte only, and two that agree on the fields only. -/
theorem witness_UnreadOperandsDoNotReachResponse :
    (ask 1 0xAB01 0 0 0 0).sample.req.reqA.setWidth 8 = (ask 2 0xCD01 9 9 9 9).sample.req.reqA.setWidth 8 ∧
    (ask 4 1 5 6 7 8).sample.req.reqF0 = (ask 4 2 5 6 7 8).sample.req.reqF0 ∧
    (ask 4 1 5 6 7 8).sample.req.reqF1 = (ask 4 2 5 6 7 8).sample.req.reqF1 ∧
    (ask 4 1 5 6 7 8).sample.req.reqF2 = (ask 4 2 5 6 7 8).sample.req.reqF2 ∧
    (ask 4 1 5 6 7 8).sample.req.reqF3 = (ask 4 2 5 6 7 8).sample.req.reqF3 := by decide
theorem witness_UnreadOperandsDoNotReachResponse_wide :
    (ask 1 0xAB0001 0 0 0 0).sample.req.reqA.setWidth 16 = (ask 2 0xCD0001 9 9 9 9).sample.req.reqA.setWidth 16 ∧
    (ask 1 0xAB00000001 0 0 0 0).sample.req.reqA.setWidth 32 =
      (ask 2 0xCD00000001 9 9 9 9).sample.req.reqA.setWidth 32 ∧
    (ask 1 7 0 0 0 0).sample.req.reqA = (ask 2 7 9 9 9 9).sample.req.reqA := by decide
/-- Both causes: a position, a state. -/
theorem witness_RangeErrorDetailsAreConsistent :
    transact ⟨0x00004032, 1, 0, 0, 0, 0⟩ = .rangeError .position 64 63 ∧
    transact ⟨0x00FF0202, 1, 0, 0, 0, 0⟩ = .rangeError .state 255 1 := by decide
/-- A pipelined engine out of reset, and a combinational one whose `rst` does not exist. -/
theorem witness_StepRunsDecodedInstruction :
    busy.host = (⟨0x00000701, 0x80, 0, 0, 0, 0⟩ : Request).drive :: busy.host.tail ∧
    (⟨0x00000701, 0x80, 0, 0, 0, 0⟩ : Request).drive.reqValid = true ∧
    ((⟨0x00000701, 0x80, 0, 0, 0, 0⟩ : Request).drive.rst = false ∨ busy.pipe = []) ∧
    decode (⟨0x00000701, 0x80, 0, 0, 0, 0⟩ : Request).drive.reqCtl = .ok (.btstW8 7) :=
  ⟨rfl, rfl, .inl rfl, by decide⟩
theorem witness_IllegalWordAnswersIllegalRequest :
    (ask 0x41 1 0 0 0 0).host = [(⟨0x41, 1, 0, 0, 0, 0⟩ : Request).drive] ∧
    (⟨0x41, 1, 0, 0, 0, 0⟩ : Request).drive.reqValid = true ∧ (ask 0x41 1 0 0 0 0).pipe = [] ∧
    decode (⟨0x41, 1, 0, 0, 0, 0⟩ : Request).drive.reqCtl = .error .reservedBits := by decide
theorem witness_AbsAtNarrowWidthIsIllegal :
    (ask 0x13 1 0 0 0 0).host = [(⟨0x13, 1, 0, 0, 0, 0⟩ : Request).drive] ∧
    (⟨0x13, 1, 0, 0, 0, 0⟩ : Request).drive.reqValid = true ∧ (ask 0x13 1 0 0 0 0).pipe = [] ∧
    bitsAt (⟨0x13, 1, 0, 0, 0, 0⟩ : Request).drive.reqCtl 0 4 = 3 ∧
    bitsAt (⟨0x13, 1, 0, 0, 0, 0⟩ : Request).drive.reqCtl 4 2 < 2 := by decide
/-- `BSET.W8 v, 8, 2`, both invalid, on a combinational engine. -/
theorem witness_ErrorsAreRanked :
    (ask 0x00020802 1 0 0 0 0).host = [(⟨0x00020802, 1, 0, 0, 0, 0⟩ : Request).drive] ∧
    (⟨0x00020802, 1, 0, 0, 0, 0⟩ : Request).drive.reqValid = true ∧ (ask 0x00020802 1 0 0 0 0).pipe = [] := by decide
theorem witness_NoRequestNoResponse :
    State.reset.sample.req.reqValid = false ∧ State.reset.sample.inReset = false ∧ State.reset.pipe = [] := by decide

/-- `busy` with `rst` asserted first. -/
def busyInReset : State := { busy with host := { Drive.idle with rst := true } :: busy.host }

theorem witness_ResetCycleDropsWhatIsInFlight :
    busyInReset.host = { Drive.idle with rst := true } :: busy.host ∧ ({ Drive.idle with rst := true } : Drive).rst = true ∧
    busyInReset.pipe ≠ [] :=
  ⟨rfl, rfl, List.cons_ne_nil _ _⟩
theorem witness_ResetDropsThenRunStartsAfresh :
    busyInReset.host = { Drive.idle with rst := true } :: (busy.host ++ []) ∧
    ({ Drive.idle with rst := true } : Drive).rst = true ∧ busyInReset.pipe ≠ [] ∧ ∀ e ∈ busy.host, e.rst = false :=
  ⟨rfl, rfl, List.cons_ne_nil _ _, by decide⟩
theorem witness_ReservedBitsMakeWordIllegal : (0x00000041 : Ctl).extractLsb' 6 2 ≠ 0 ∧ (0x80000002 : Ctl).extractLsb' 24 8 ≠ 0 := by
  decide
theorem witness_DecoderAgreesWithOpcodeRows :
    ∃ row ∈ opcodeRows, row.selects 0x00FFFF32 = true ∧ row.mnemonic = "BSET.W64" := by decide
theorem witness_DecodeOfEncodeIsIdentity : (Instr.bsetW64 255 255).wf = true ∧ Instr.unpk4x16.wf = true := by decide
theorem witness_EncodeOfDecodeIsIdentity : decode 0x00FFFF32 = .ok (.bsetW64 255 255) := by decide
theorem witness_AssembledLineRunsItsInstruction :
    assemble .pack4x16 ⟨9, 1, 2, 3, 4⟩ = some ⟨4, 0, 1, 2, 3, 4⟩ := by decide
theorem witness_StepAnswersExecOfRequest :
    busy.host = (⟨0x00000701, 0x80, 0, 0, 0, 0⟩ : Request).drive :: busy.host.tail ∧
    (⟨0x00000701, 0x80, 0, 0, 0, 0⟩ : Request).drive.reqValid = true ∧
    ((⟨0x00000701, 0x80, 0, 0, 0, 0⟩ : Request).drive.rst = false ∨ busy.pipe = []) :=
  ⟨rfl, rfl, .inl rfl⟩
/-- A pipelined engine with a response in flight and a combinational one get the same request. -/
theorem witness_ResponseDependsOnRequestAlone :
    busy.host = (⟨0x00000701, 0x80, 0, 0, 0, 0⟩ : Request).drive :: busy.host.tail ∧
    (ask 0x00000701 0x80 0 0 0 0).host = [(⟨0x00000701, 0x80, 0, 0, 0, 0⟩ : Request).drive] ∧
    (⟨0x00000701, 0x80, 0, 0, 0, 0⟩ : Request).drive.reqValid = true ∧
    ((⟨0x00000701, 0x80, 0, 0, 0, 0⟩ : Request).drive.rst = false ∨ busy.pipe = []) ∧
    (ask 0x00000701 0x80 0 0 0 0).pipe = [] :=
  ⟨rfl, rfl, rfl, .inl rfl, rfl⟩
theorem witness_RunAnswersInOrderAfterLatency : busy.host = busy.host ++ [] ∧ ∀ d ∈ busy.host, d.rst = false :=
  ⟨(List.append_nil _).symm, by decide⟩
theorem witness_OutputPortsAreLegalAfterEveryStep : ∃ t, step busy = .next t :=
  ⟨_, step_of_legal (i := .btstW8 7) (by rfl) (by rfl) (by decide)⟩
theorem witness_CombinationalAfterEveryStep : ∃ t, step (ask 0x23 5 0 0 0 0) = .next t ∧ t.pipe = [] := ⟨_, rfl, rfl⟩
theorem witness_StepKeepsOnlyAnswers : busy.OnlyAnswers ∧ ∃ t, step busy = .next t := by
  refine ⟨⟨fun st hst => ?_, .inl rfl⟩, witness_OutputPortsAreLegalAfterEveryStep⟩
  rcases List.mem_cons.mp hst with rfl | hst
  · exact fun _ => ⟨⟨0x00000033, 5, 0, 0, 0, 0⟩, rfl⟩
  · rw [List.mem_singleton.mp hst]
    exact fun h => absurd h Bool.false_ne_true

end Sys2Proof.Tests
end

section
/-! The sampled request and its response: that the decoder followed by the dispatch computes `Exec`, and what a step does
in terms of `Exec` (spec/10_state.md R23 to R26). -/

namespace Sys2Proof.Machine

/-! ## The decoder and the dispatch against `Exec` -/

/-- BTST at the width that `wsel` selects is the generic operation at W = 8·2^wsel (R42). -/
@[simp] theorem responseOf_btstOf (wsel : BitVec 2) (pos : Nat) (q : Request) :
    responseOf (btstOf wsel pos) q = btstResponse (widthOf wsel.toNat) pos q := by
  have hw : wsel.toNat < 4 := wsel.isLt
  unfold btstOf
  interval_cases wsel.toNat <;> rfl

/-- BSET at the width that `wsel` selects is the generic operation at W = 8·2^wsel (R42). -/
@[simp] theorem responseOf_bsetOf (wsel : BitVec 2) (pos st : Nat) (q : Request) :
    responseOf (bsetOf wsel pos st) q = bsetResponse (widthOf wsel.toNat) pos st q := by
  have hw : wsel.toNat < 4 := wsel.isLt
  unfold bsetOf
  interval_cases wsel.toNat <;> rfl

/-- The response that a decoded word gets: its instruction's, or the one to an illegal word (R51, R90). -/
def decodedResponse (q : Request) : Except IllegalClass Instr → Response
  | .ok i => responseOf i q
  | .error _ => raiseIllegalRequest q.ctl

@[simp] theorem decodedResponse_ok (q : Request) (i : Instr) : decodedResponse q (.ok i) = responseOf i q := rfl

@[simp] theorem decodedResponse_error (q : Request) (c : IllegalClass) :
    decodedResponse q (.error c) = raiseIllegalRequest q.ctl := rfl

/-- The decoder checks what is wrong with a word and `Exec` what is right with it: the response is the same (R49, R90). -/
theorem decodedResponse_check (q : Request) {bad good : Prop} [Decidable bad] [Decidable good] (h : good ↔ ¬bad)
    (c : IllegalClass) (x : Except IllegalClass Instr) :
    decodedResponse q (if bad then .error c else x) =
      if good then decodedResponse q x else raiseIllegalRequest q.ctl := by
  by_cases hbad : bad <;> simp [h, hbad]

/-- ABS at the width that `wsel` selects, once `wsel` is 2 or 3 (R42, R47). -/
theorem decodedResponse_abs {wsel : Nat} (q : Request) (hlo : 2 ≤ wsel) (hhi : wsel < 4) :
    decodedResponse q (if wsel = 2 then .ok .absW32 else .ok .absW64) = absResponse (widthOf wsel) q := by
  interval_cases wsel <;> rfl

/-- `Exec` of R23, written over the bare fields, is the decoder followed by the dispatch (R51). -/
theorem transact_eq_decodedResponse (q : Request) : transact q = decodedResponse q (decode q.ctl) := by
  rw [decode_eq_bitsAt]
  unfold transact
  dsimp only
  by_cases hrz : bitsAt q.ctl 6 2 ≠ 0 ∨ bitsAt q.ctl 24 8 ≠ 0
  · rw [if_pos hrz, if_pos hrz, decodedResponse_error]
  rw [if_neg hrz, if_neg hrz]
  have hwsel : bitsAt q.ctl 4 2 < 4 := bitsAt_lt q.ctl 4 2
  have hbtst : bitsAt q.ctl 16 8 = 0 ↔ ¬bitsAt q.ctl 16 8 ≠ 0 := not_not.symm
  have habs : 2 ≤ bitsAt q.ctl 4 2 ∧ bitsAt q.ctl 8 8 = 0 ∧ bitsAt q.ctl 16 8 = 0 ↔
      ¬(bitsAt q.ctl 4 2 < 2 ∨ bitsAt q.ctl 8 8 ≠ 0 ∨ bitsAt q.ctl 16 8 ≠ 0) := by omega
  have hpack : bitsAt q.ctl 4 2 = 0 ∧ bitsAt q.ctl 8 8 = 0 ∧ bitsAt q.ctl 16 8 = 0 ↔
      ¬(bitsAt q.ctl 4 2 ≠ 0 ∨ bitsAt q.ctl 8 8 ≠ 0 ∨ bitsAt q.ctl 16 8 ≠ 0) := by omega
  generalize bitsAt q.ctl 0 4 = op
  match op with
  | 1 =>
    simp only [decodedResponse_check q hbtst]
    simp
  | 2 => simp
  | 3 =>
    simp only [decodedResponse_check q habs]
    simp +contextual [decodedResponse_abs, hwsel]
  | 4 =>
    simp only [decodedResponse_check q hpack]
    simp [responseOf]
  | 5 =>
    simp only [decodedResponse_check q hpack]
    simp [responseOf]
  | 0 | n + 6 => simp

/-- A word that spells an instruction: `Exec` is that instruction's response. -/
theorem transact_of_decode_ok {q : Request} {i : Instr} (h : decode q.ctl = .ok i) : transact q = responseOf i q := by
  rw [transact_eq_decodedResponse, h, decodedResponse_ok]

/-- A word that spells none: `Exec` is ILLEGAL_REQUEST with the word (R90). -/
theorem transact_of_decode_error {q : Request} {c : IllegalClass} (h : decode q.ctl = .error c) :
    transact q = .illegalRequest q.ctl := by
  rw [transact_eq_decodedResponse, h]
  rfl

/-! ## The step in terms of `Exec` -/

section Step
variable {s t : State}

/-- A request that is accepted, legal or not, is answered by `Exec` of it (R23). -/
theorem step_of_request (h : s.sample.inReset = false) (hv : s.sample.req.reqValid = true) :
    step s = .next (s.sample.respond (transact s.sample.request)) := by
  cases hd : decode s.sample.req.reqCtl with
  | ok i => rw [step_of_legal h hv hd, exec_eq_respond, transact_of_decode_ok (q := s.sample.request) hd]
  | error c =>
    rw [step_of_illegal h hv hd, transact_of_decode_error (q := s.sample.request) hd]
    rfl

/-- Everything a step can do, in terms of `Exec`: drop what is in flight, answer nothing, or answer `Exec` of the sampled
request. -/
theorem step_cases_transact (h : step s = .next t) :
    (s.sample.inReset = true ∧ t = s.sample.resetCycle) ∨
    (s.sample.inReset = false ∧ s.sample.req.reqValid = false ∧ t = s.sample.idleCycle) ∨
    (s.sample.inReset = false ∧ s.sample.req.reqValid = true ∧
      t = s.sample.respond (transact s.sample.request)) := by
  obtain hreset | hidle | ⟨hr, hv, -⟩ := step_cases h
  · exact .inl hreset
  · exact .inr (.inl hidle)
  · rw [step_of_request hr hv] at h
    exact .inr (.inr ⟨hr, hv, (Host.Outcome.next.inj h).symm⟩)

/-- A drive is not in reset when its `rst` is 0 or the engine has no reset input (R26, R101). -/
theorem sample_inReset_eq_false {d : Drive} {rest : List Drive} (hhost : s.host = d :: rest)
    (hrst : d.rst = false ∨ s.pipe = []) : s.sample.inReset = false := by
  rw [inReset_cons hhost]
  rcases hrst with hrst | hpipe
  · rw [hrst, Bool.false_and]
  · rw [hpipe, List.isEmpty_nil, Bool.not_true, Bool.and_false]

/-- The step for an accepted drive: `Exec` of its request is its one response and nothing else changes (R23). -/
theorem step_answers_transact {d : Drive} {rest : List Drive} (hhost : s.host = d :: rest) (hv : d.reqValid = true)
    (hrst : d.rst = false ∨ s.pipe = []) :
    ∃ t : State, step s = .next t ∧ Answers { s with host := rest, req := d } t (transact d.request) := by
  have hstep := step_of_request (sample_inReset_eq_false hhost hrst) (by rw [State.sample_cons hhost]; exact hv)
  rw [State.sample_cons hhost] at hstep
  exact ⟨_, hstep, State.respond_answers _ _⟩

/-- An engine in reset has a pipeline. -/
theorem pipe_ne_nil_of_inReset (h : s.inReset = true) : s.pipe ≠ [] := by
  intro hpipe
  simp [State.inReset, hpipe] at h

end Step

/-! ## Moving the pipeline -/

/-- The pipeline is empty after a move exactly when the engine has no stages. -/
@[simp] theorem shiftPipe_eq_nil_iff (pipe : List Stage) (new : Stage) : (shiftPipe pipe new).2 = [] ↔ pipe = [] := by
  rw [← List.length_eq_zero_iff, shiftPipe_length, List.length_eq_zero_iff]

/-- What enters an engine without stages leaves it in the same step. -/
@[simp] theorem shiftPipe_nil (new : Stage) : shiftPipe [] new = (new, []) := rfl

/-! ## The invariant that no response is made up -/

/-- A stage without a response holds nothing that is made up. -/
theorem Stage.isAnswer_of_not_valid {st : Stage} (h : st.valid = false) : st.IsAnswer :=
  fun hv => absurd (h.symm.trans hv) Bool.false_ne_true

/-- A stage that holds `Exec` of a request holds an answer. -/
theorem Stage.full_transact_isAnswer (q : Request) : (Stage.full (transact q)).IsAnswer := fun _ => ⟨q, rfl⟩

/-- Such a stage puts on the output ports the idle values or `Exec` of a request. -/
theorem Stage.IsAnswer.ports {st : Stage} (h : st.IsAnswer) :
    st.ports = RspPorts.idle ∨ ∃ q : Request, st.ports = (transact q).ports := by
  unfold Stage.ports
  cases hv : st.valid with
  | false => exact .inl rfl
  | true =>
    obtain ⟨q, hq⟩ := h hv
    exact .inr ⟨q, congrArg Response.ports hq⟩

/-- Sampling the input ports touches no response. -/
theorem State.OnlyAnswers.sample {s : State} (h : s.OnlyAnswers) : s.sample.OnlyAnswers := by
  simpa [State.OnlyAnswers] using h

/-- An answer, or a stage without one, that enters the pipeline keeps the invariant. -/
theorem State.OnlyAnswers.enter {s : State} {new : Stage} (h : s.OnlyAnswers) (hnew : new.IsAnswer) :
    (s.enter new).OnlyAnswers := by
  have hstage : ∀ st, st = (shiftPipe s.pipe new).1 ∨ st ∈ (shiftPipe s.pipe new).2 → st.IsAnswer := by
    intro st hst
    obtain ⟨hpipe, -⟩ := h
    rcases shiftPipe_mem hst with hold | rfl
    · exact hpipe st hold
    · exact hnew
  exact ⟨fun st hst => hstage st (.inr hst), (hstage _ (.inl rfl)).ports⟩

/-- A cycle in reset leaves no response at all. -/
theorem State.resetCycle_onlyAnswers (s : State) : s.resetCycle.OnlyAnswers :=
  ⟨fun _ hst => Stage.isAnswer_of_not_valid (bubbles_valid hst), .inl rfl⟩

end Sys2Proof.Machine
end

section
/-! The obligations of spec/10_state.md. -/

namespace Sys2Proof.Machine

/-- Settles O43: each of the three things a step can do keeps the invariant. -/
theorem stepKeepsOnlyAnswers : Obligations.StepKeepsOnlyAnswers := by
  intro s t hs hstep
  obtain ⟨-, rfl⟩ | ⟨-, -, rfl⟩ | ⟨-, -, rfl⟩ := step_cases_transact hstep
  · exact s.sample.resetCycle_onlyAnswers
  · exact hs.sample.enter (Stage.isAnswer_of_not_valid (Stage.bubble_valid _))
  · exact hs.sample.enter (Stage.full_transact_isAnswer _)

/-- Settles O36: `Exec` is the decoder followed by the dispatch. -/
theorem stepAnswersExecOfRequest : Obligations.StepAnswersExecOfRequest :=
  fun _ _ _ hhost hv hrst => step_answers_transact hhost hv hrst

/-- Settles O37: both responses are `Exec` of the one request. -/
theorem responseDependsOnRequestAlone : Obligations.ResponseDependsOnRequestAlone := by
  intro s u d e rest rest' hs hu hd he hreq hsrst hursts
  obtain ⟨t, hstep, hans⟩ := step_answers_transact hs hd hsrst
  obtain ⟨v, hstep', hans'⟩ := step_answers_transact hu he hursts
  exact ⟨transact d.request, t, v, hstep, hans, hstep', hreq ▸ hans'⟩

/-- Settles O42: without stages there is no reset, and what enters the pipeline stands on the ports. -/
theorem combinationalAfterEveryStep : Obligations.CombinationalAfterEveryStep := by
  intro s t hstep hpipe
  obtain ⟨hr, rfl⟩ | ⟨-, hv, rfl⟩ | ⟨-, hv, rfl⟩ := step_cases_transact hstep
  · rw [← List.length_eq_zero_iff, State.resetCycle_pipe, bubbles_length, List.length_eq_zero_iff] at hpipe
    exact absurd hpipe (pipe_ne_nil_of_inReset hr)
  · rw [State.idleCycle_pipe, shiftPipe_eq_nil_iff, State.sample_pipe] at hpipe
    simp [hpipe, hv, Drive.answer]
  · rw [State.respond_pipe, shiftPipe_eq_nil_iff, State.sample_pipe] at hpipe
    simp [hpipe, hv, Drive.answer, State.request]

/-- Settles O25: the stage that enters is a bubble. -/
theorem noRequestNoResponse : Obligations.NoRequestNoResponse := by
  intro s hv hr
  refine ⟨s.sample.idleCycle, (shiftPipe s.pipe (Stage.bubble s.draws)).1, Stage.bubble s.draws, step_of_idle hr hv,
    State.sample_host s, rfl, Stage.bubble_valid _, ?_, ?_, ?_⟩
  · simpa using shiftPipe_moves s.pipe (Stage.bubble s.draws)
  · simp
  · intro hpipe
    simp [hpipe]

end Sys2Proof.Machine
end

section
/-! The encoding of spec/30_encoding.md sections 1 to 4: a word is its six fields, the decoder and the encoder are inverse on
the legal words, and the legal words told by their fields. -/

namespace Sys2Proof.Machine

/-! ## A word and its fields -/

/-- The arithmetic of R39 does not wrap when each operand fits its field. -/
theorem encodeFields_toNat {op wsel pos st : Nat} (hop : op < 16) (hw : wsel < 4) (hp : pos ≤ 255) (hs : st ≤ 255) :
    (encodeFields op wsel pos st).toNat = op + 16 * wsel + 256 * pos + 65536 * st := by
  rw [encodeFields, BitVec.toNat_ofNat]
  omega

/-- A word is its fields: it is the one that R39 makes of four numbers exactly when its fields hold them and its reserved
fields are 0. -/
theorem eq_encodeFields_iff {ctl : Ctl} {op wsel pos st : Nat} (hop : op < 16) (hw : wsel < 4) (hp : pos ≤ 255)
    (hs : st ≤ 255) :
    ctl = encodeFields op wsel pos st ↔
      (bitsAt ctl 6 2 = 0 ∧ bitsAt ctl 24 8 = 0) ∧ bitsAt ctl 0 4 = op ∧ bitsAt ctl 4 2 = wsel ∧ bitsAt ctl 8 8 = pos ∧
        bitsAt ctl 16 8 = st := by
  have hctl : ctl.toNat < 2 ^ 32 := ctl.isLt
  rw [← BitVec.toNat_inj, encodeFields_toNat hop hw hp hs]
  simp only [bitsAt]
  omega

/-- The 8-bit field `pos` holds at most 255 (R43). -/
theorem bitsAt_pos_le (ctl : Ctl) : bitsAt ctl 8 8 ≤ 255 := Nat.le_of_lt_succ (bitsAt_lt ctl 8 8)

/-- The 8-bit field `st` holds at most 255 (R44). -/
theorem bitsAt_st_le (ctl : Ctl) : bitsAt ctl 16 8 ≤ 255 := Nat.le_of_lt_succ (bitsAt_lt ctl 16 8)

theorem posFits_iff {pos : Nat} : posFits pos = true ↔ pos ≤ 255 := decide_eq_true_iff

theorem stFits_iff {st : Nat} : stFits st = true ↔ st ≤ 255 := decide_eq_true_iff

@[simp] theorem posFits_bitsAt (ctl : Ctl) : posFits (bitsAt ctl 8 8) = true := posFits_iff.mpr (bitsAt_pos_le ctl)

@[simp] theorem stFits_bitsAt (ctl : Ctl) : stFits (bitsAt ctl 16 8) = true := stFits_iff.mpr (bitsAt_st_le ctl)

/-- A word whose reserved fields are 0 is the one that R39 makes of its own four fields. -/
theorem encodeFields_bitsAt {ctl : Ctl} (hrz : bitsAt ctl 6 2 = 0 ∧ bitsAt ctl 24 8 = 0) :
    encodeFields (bitsAt ctl 0 4) (bitsAt ctl 4 2) (bitsAt ctl 8 8) (bitsAt ctl 16 8) = ctl :=
  ((eq_encodeFields_iff (bitsAt_lt ctl 0 4) (bitsAt_lt ctl 4 2) (bitsAt_pos_le ctl) (bitsAt_st_le ctl)).mpr
    ⟨hrz, rfl, rfl, rfl, rfl⟩).symm

/-! ## BTST and BSET at the width that `wsel` selects -/

/-- The word of a BTST (R40, R42). -/
@[simp] theorem encode_btstOf (wsel : BitVec 2) (pos : Nat) :
    encode (btstOf wsel pos) = encodeFields 1 wsel.toNat pos 0 := by
  have hw : wsel.toNat < 4 := wsel.isLt
  unfold btstOf
  interval_cases wsel.toNat <;> rfl

/-- The word of a BSET (R40, R42). -/
@[simp] theorem encode_bsetOf (wsel : BitVec 2) (pos st : Nat) :
    encode (bsetOf wsel pos st) = encodeFields 2 wsel.toNat pos st := by
  have hw : wsel.toNat < 4 := wsel.isLt
  unfold bsetOf
  interval_cases wsel.toNat <;> rfl

/-- A BTST is well formed at every width when its position fits. -/
@[simp] theorem wf_btstOf (wsel : BitVec 2) (pos : Nat) : (btstOf wsel pos).wf = posFits pos := by
  unfold btstOf
  split <;> rfl

/-- A BSET is well formed at every width when its position and its state fit. -/
@[simp] theorem wf_bsetOf (wsel : BitVec 2) (pos st : Nat) : (bsetOf wsel pos st).wf = (posFits pos && stFits st) := by
  unfold bsetOf
  split <;> rfl

/-! ## The decoder, told by the fields -/

/-- A decoder check that a word passes found nothing wrong. -/
theorem ok_of_check {bad : Prop} [Decidable bad] {c : IllegalClass} {x : Except IllegalClass Instr} {i : Instr}
    (h : (if bad then .error c else x) = .ok i) : ¬bad ∧ x = .ok i := by
  by_cases hbad : bad <;> simp_all

/-- Everything the decoder accepts: no reserved bit, and one of the five operations with its unused fields 0 (R47, R51). -/
theorem decode_ok_cases {ctl : Ctl} {i : Instr} (h : decode ctl = .ok i) :
    (bitsAt ctl 6 2 = 0 ∧ bitsAt ctl 24 8 = 0) ∧
      ((bitsAt ctl 0 4 = 1 ∧ bitsAt ctl 16 8 = 0 ∧ i = btstOf (ctlWsel ctl) (bitsAt ctl 8 8)) ∨
       (bitsAt ctl 0 4 = 2 ∧ i = bsetOf (ctlWsel ctl) (bitsAt ctl 8 8) (bitsAt ctl 16 8)) ∨
       (bitsAt ctl 0 4 = 3 ∧ bitsAt ctl 8 8 = 0 ∧ bitsAt ctl 16 8 = 0 ∧
         (bitsAt ctl 4 2 = 2 ∧ i = .absW32 ∨ bitsAt ctl 4 2 = 3 ∧ i = .absW64)) ∨
       (bitsAt ctl 4 2 = 0 ∧ bitsAt ctl 8 8 = 0 ∧ bitsAt ctl 16 8 = 0 ∧
         (bitsAt ctl 0 4 = 4 ∧ i = .pack4x16 ∨ bitsAt ctl 0 4 = 5 ∧ i = .unpk4x16))) := by
  have hwsel : bitsAt ctl 4 2 < 4 := bitsAt_lt ctl 4 2
  rw [decode_eq_bitsAt] at h
  by_cases hrz : bitsAt ctl 6 2 ≠ 0 ∨ bitsAt ctl 24 8 ≠ 0
  · rw [if_pos hrz] at h
    cases h
  rw [if_neg hrz] at h
  refine ⟨by omega, ?_⟩
  split at h
  next hop =>
    obtain ⟨hst, hi⟩ := ok_of_check h
    exact .inl ⟨hop, not_not.mp hst, (Except.ok.inj hi).symm⟩
  next hop => exact .inr (.inl ⟨hop, (Except.ok.inj h).symm⟩)
  next hop =>
    obtain ⟨hfields, hi⟩ := ok_of_check h
    refine .inr (.inr (.inl ⟨hop, by omega, by omega, ?_⟩))
    split at hi
    next hw => exact .inl ⟨hw, (Except.ok.inj hi).symm⟩
    next hw => exact .inr ⟨by omega, (Except.ok.inj hi).symm⟩
  next hop =>
    obtain ⟨hfields, hi⟩ := ok_of_check h
    exact .inr (.inr (.inr ⟨by omega, by omega, by omega, .inl ⟨hop, (Except.ok.inj hi).symm⟩⟩))
  next hop =>
    obtain ⟨hfields, hi⟩ := ok_of_check h
    exact .inr (.inr (.inr ⟨by omega, by omega, by omega, .inr ⟨hop, (Except.ok.inj hi).symm⟩⟩))
  next => cases h

/-- The field `wsel` of the word that R39 makes of four numbers. -/
theorem ctlWsel_encodeFields {op pos st : Nat} (wsel : BitVec 2) (hop : op < 16) (hp : pos ≤ 255) (hs : st ≤ 255) :
    ctlWsel (encodeFields op wsel.toNat pos st) = wsel := by
  obtain ⟨-, -, hwsel, -⟩ := (eq_encodeFields_iff hop wsel.isLt hp hs).mp rfl
  exact BitVec.eq_of_toNat_eq (by rw [ctlWsel_toNat, hwsel])

/-- The word of a well-formed BTST decodes to it. -/
theorem decode_encode_btstOf {wsel : BitVec 2} {pos : Nat} (hwf : (btstOf wsel pos).wf = true) :
    decode (encode (btstOf wsel pos)) = .ok (btstOf wsel pos) := by
  rw [wf_btstOf, posFits_iff] at hwf
  obtain ⟨⟨hrz0, hrz1⟩, hop, -, hpos, hst⟩ :=
    (eq_encodeFields_iff (op := 1) (by decide) wsel.isLt hwf (Nat.zero_le 255)).mp rfl
  rw [encode_btstOf, decode_eq_bitsAt, ctlWsel_encodeFields wsel (by decide) hwf (Nat.zero_le 255)]
  simp [hrz0, hrz1, hop, hpos, hst]

/-- The word of a well-formed BSET decodes to it. -/
theorem decode_encode_bsetOf {wsel : BitVec 2} {pos st : Nat} (hwf : (bsetOf wsel pos st).wf = true) :
    decode (encode (bsetOf wsel pos st)) = .ok (bsetOf wsel pos st) := by
  rw [wf_bsetOf, Bool.and_eq_true, posFits_iff, stFits_iff] at hwf
  obtain ⟨hp, hs⟩ := hwf
  obtain ⟨⟨hrz0, hrz1⟩, hop, -, hpos, hst⟩ :=
    (eq_encodeFields_iff (op := 2) (by decide) wsel.isLt hp hs).mp rfl
  rw [encode_bsetOf, decode_eq_bitsAt, ctlWsel_encodeFields wsel (by decide) hp hs]
  simp [hrz0, hrz1, hop, hpos, hst]

/-! ## The round trips -/

/-- The word of a well-formed instruction decodes to it: ABS and pack words are closed, BTST and BSET words go through
their fields. -/
theorem decode_encode {i : Instr} (hwf : i.wf = true) : decode (encode i) = .ok i := by
  cases i with
  | absW32 | absW64 | pack4x16 | unpk4x16 => decide
  | btstW8 pos => exact decode_encode_btstOf (wsel := 0) hwf
  | btstW16 pos => exact decode_encode_btstOf (wsel := 1) hwf
  | btstW32 pos => exact decode_encode_btstOf (wsel := 2) hwf
  | btstW64 pos => exact decode_encode_btstOf (wsel := 3) hwf
  | bsetW8 pos st => exact decode_encode_bsetOf (wsel := 0) hwf
  | bsetW16 pos st => exact decode_encode_bsetOf (wsel := 1) hwf
  | bsetW32 pos st => exact decode_encode_bsetOf (wsel := 2) hwf
  | bsetW64 pos st => exact decode_encode_bsetOf (wsel := 3) hwf

/-- An accepted word has its reserved fields 0, so it is the word of its own four fields, and those are the ones of its
instruction. -/
theorem encode_of_decode_ok {ctl : Ctl} {i : Instr} (h : decode ctl = .ok i) : encode i = ctl ∧ i.wf = true := by
  obtain ⟨hrz, ⟨hop, hst, rfl⟩ | ⟨hop, rfl⟩ | ⟨hop, hpos, hst, ⟨hw, rfl⟩ | ⟨hw, rfl⟩⟩ |
    ⟨hw, hpos, hst, ⟨hop, rfl⟩ | ⟨hop, rfl⟩⟩⟩ := decode_ok_cases h
  all_goals have hctl := encodeFields_bitsAt hrz
  · rw [hop, hst] at hctl
    exact ⟨by rw [encode_btstOf, ctlWsel_toNat, hctl], by simp⟩
  · rw [hop] at hctl
    exact ⟨by rw [encode_bsetOf, ctlWsel_toNat, hctl], by simp⟩
  all_goals
    rw [hop, hw, hpos, hst] at hctl
    exact ⟨hctl, rfl⟩

/-! ## Illegal and legal words, told by the fields -/

/-- A decoder check fails exactly when what it looks for is there, or what comes after it fails. -/
theorem exists_error_of_check {bad : Prop} [Decidable bad] {c : IllegalClass} {x : Except IllegalClass Instr} :
    (∃ c', (if bad then .error c else x) = .error c') ↔ bad ∨ ∃ c', x = .error c' := by
  by_cases h : bad <;> simp [h]

/-- The words the decoder rejects are those of the five classes of R49. -/
theorem exists_decode_error_iff (ctl : Ctl) :
    (∃ c, decode ctl = .error c) ↔
      (bitsAt ctl 6 2 ≠ 0 ∨ bitsAt ctl 24 8 ≠ 0) ∨
      (bitsAt ctl 0 4 = 0 ∨ 6 ≤ bitsAt ctl 0 4) ∨
      (bitsAt ctl 0 4 = 1 ∧ bitsAt ctl 16 8 ≠ 0) ∨
      (bitsAt ctl 0 4 = 3 ∧ (bitsAt ctl 4 2 < 2 ∨ bitsAt ctl 8 8 ≠ 0 ∨ bitsAt ctl 16 8 ≠ 0)) ∨
      ((bitsAt ctl 0 4 = 4 ∨ bitsAt ctl 0 4 = 5) ∧
        (bitsAt ctl 4 2 ≠ 0 ∨ bitsAt ctl 8 8 ≠ 0 ∨ bitsAt ctl 16 8 ≠ 0)) := by
  rw [decode_eq_bitsAt, exists_error_of_check]
  refine or_congr_right ?_
  generalize bitsAt ctl 0 4 = op
  match op with
  | 1 | 2 | 4 | 5 =>
    simp only [exists_error_of_check]
    simp
  | 3 =>
    simp only [exists_error_of_check, ← apply_ite]
    simp
  | 0 | n + 6 => simp

/-- The decoder accepts a word or rejects it. -/
theorem exists_decode_ok_iff_not_error (ctl : Ctl) : (∃ i, decode ctl = .ok i) ↔ ¬∃ c, decode ctl = .error c := by
  cases decode ctl <;> simp

end Sys2Proof.Machine
end

section
/-! The opcode map of spec/30_encoding.md R47 against the decoder, and the words that it selects. -/

namespace Sys2Proof.Machine

/-! ## The rows -/

/-- No two rows of the opcode map have one mnemonic. -/
theorem opcodeRow_eq_of_mnemonic_eq :
    ∀ row ∈ opcodeRows, ∀ row' ∈ opcodeRows, row.mnemonic = row'.mnemonic → row = row' := by decide

/-- The word of a well-formed instruction selects the row of its mnemonic (R47). -/
theorem encode_selects_row {i : Instr} (hwf : i.wf = true) :
    ∃ row ∈ opcodeRows, row.mnemonic = i.mnemonic ∧ row.selects (encode i) = true := by
  revert hwf
  cases i with
  | absW32 => exact Laws.EncodedRow.absW32
  | absW64 => exact Laws.EncodedRow.absW64
  | btstW8 pos => exact Laws.EncodedRow.btstW8 pos
  | btstW16 pos => exact Laws.EncodedRow.btstW16 pos
  | btstW32 pos => exact Laws.EncodedRow.btstW32 pos
  | btstW64 pos => exact Laws.EncodedRow.btstW64 pos
  | bsetW8 pos st => exact Laws.EncodedRow.bsetW8 pos st
  | bsetW16 pos st => exact Laws.EncodedRow.bsetW16 pos st
  | bsetW32 pos st => exact Laws.EncodedRow.bsetW32 pos st
  | bsetW64 pos st => exact Laws.EncodedRow.bsetW64 pos st
  | pack4x16 => exact Laws.EncodedRow.pack4x16
  | unpk4x16 => exact Laws.EncodedRow.unpk4x16

/-- A field that a mask covers is the same in the masked word. -/
theorem bitsAt_and_of_mask {mask : Ctl} {lo n : Nat} (ctl : Ctl)
    (hmask : mask.extractLsb' lo n = BitVec.allOnes n) : bitsAt (ctl &&& mask) lo n = bitsAt ctl lo n := by
  rw [← toNat_extract, BitVec.extractLsb'_and, hmask, BitVec.and_allOnes, toNat_extract]

/-- A word that a BTST row selects is the BTST word of that width at its own position. -/
theorem encodeFields_eq_of_btstRow {ctl : Ctl} {wsel : Nat} (hw : wsel < 4)
    (h : ctl &&& 0xFFFF00FF = encodeFields 1 wsel 0 0) : encodeFields 1 wsel (bitsAt ctl 8 8) 0 = ctl := by
  obtain ⟨⟨hrz0, hrz1⟩, hop, hwsel, -, hst⟩ :=
    (eq_encodeFields_iff (by decide) hw (Nat.zero_le 255) (Nat.zero_le 255)).mp h
  rw [bitsAt_and_of_mask ctl (by decide)] at hrz0 hrz1 hop hwsel hst
  exact ((eq_encodeFields_iff (by decide) hw (bitsAt_pos_le ctl) (Nat.zero_le 255)).mpr
    ⟨⟨hrz0, hrz1⟩, hop, hwsel, rfl, hst⟩).symm

/-- A word that a BSET row selects is the BSET word of that width at its own position and state. -/
theorem encodeFields_eq_of_bsetRow {ctl : Ctl} {wsel : Nat} (hw : wsel < 4)
    (h : ctl &&& 0xFF0000FF = encodeFields 2 wsel 0 0) :
    encodeFields 2 wsel (bitsAt ctl 8 8) (bitsAt ctl 16 8) = ctl := by
  obtain ⟨⟨hrz0, hrz1⟩, hop, hwsel, -, -⟩ :=
    (eq_encodeFields_iff (by decide) hw (Nat.zero_le 255) (Nat.zero_le 255)).mp h
  rw [bitsAt_and_of_mask ctl (by decide)] at hrz0 hrz1 hop hwsel
  exact ((eq_encodeFields_iff (by decide) hw (bitsAt_pos_le ctl) (bitsAt_st_le ctl)).mpr
    ⟨⟨hrz0, hrz1⟩, hop, hwsel, rfl, rfl⟩).symm

/-- A word that a row with no free field selects is the row's own. -/
theorem match_eq_of_fixedRow {ctl m : Ctl} (h : ctl &&& 0xFFFFFFFF = m) : m = ctl := by
  rw [← h]
  exact BitVec.and_allOnes

/-- A row selects only words of well-formed instructions with its mnemonic (R47). -/
theorem exists_encode_of_selects {row : OpcodeRow} (hrow : row ∈ opcodeRows) {ctl : Ctl}
    (h : row.selects ctl = true) : ∃ i : Instr, i.wf = true ∧ encode i = ctl ∧ i.mnemonic = row.mnemonic := by
  have hmask : ctl &&& row.maskBits = row.matchBits := beq_iff_eq.mp h
  have hp := posFits_bitsAt ctl
  have hps := Bool.and_eq_true_iff.mpr ⟨hp, stFits_bitsAt ctl⟩
  simp only [opcodeRows, List.mem_cons, List.not_mem_nil, or_false] at hrow
  obtain rfl | rfl | rfl | rfl | rfl | rfl | rfl | rfl | rfl | rfl | rfl | rfl := hrow
  · exact ⟨.absW32, rfl, match_eq_of_fixedRow hmask, rfl⟩
  · exact ⟨.absW64, rfl, match_eq_of_fixedRow hmask, rfl⟩
  · exact ⟨.btstW8 _, hp, encodeFields_eq_of_btstRow (by decide) hmask, rfl⟩
  · exact ⟨.btstW16 _, hp, encodeFields_eq_of_btstRow (by decide) hmask, rfl⟩
  · exact ⟨.btstW32 _, hp, encodeFields_eq_of_btstRow (by decide) hmask, rfl⟩
  · exact ⟨.btstW64 _, hp, encodeFields_eq_of_btstRow (by decide) hmask, rfl⟩
  · exact ⟨.bsetW8 _ _, hps, encodeFields_eq_of_bsetRow (by decide) hmask, rfl⟩
  · exact ⟨.bsetW16 _ _, hps, encodeFields_eq_of_bsetRow (by decide) hmask, rfl⟩
  · exact ⟨.bsetW32 _ _, hps, encodeFields_eq_of_bsetRow (by decide) hmask, rfl⟩
  · exact ⟨.bsetW64 _ _, hps, encodeFields_eq_of_bsetRow (by decide) hmask, rfl⟩
  · exact ⟨.pack4x16, rfl, match_eq_of_fixedRow hmask, rfl⟩
  · exact ⟨.unpk4x16, rfl, match_eq_of_fixedRow hmask, rfl⟩

/-- A row selects exactly the words that decode to an instruction with its mnemonic. -/
theorem selects_iff_decode {row : OpcodeRow} (hrow : row ∈ opcodeRows) (ctl : Ctl) :
    row.selects ctl = true ↔ ∃ i : Instr, decode ctl = .ok i ∧ i.mnemonic = row.mnemonic := by
  constructor
  · intro h
    obtain ⟨i, hwf, rfl, hmn⟩ := exists_encode_of_selects hrow h
    exact ⟨i, decode_encode hwf, hmn⟩
  · rintro ⟨i, hd, hmn⟩
    obtain ⟨rfl, hwf⟩ := encode_of_decode_ok hd
    obtain ⟨row', hrow', hmn', hsel⟩ := encode_selects_row hwf
    rwa [opcodeRow_eq_of_mnemonic_eq row hrow row' hrow' (hmn.symm.trans hmn'.symm)]

/-- A word decodes to an instruction exactly when some row selects it. -/
theorem exists_decode_ok_iff_selects (ctl : Ctl) :
    (∃ i, decode ctl = .ok i) ↔ ∃ row ∈ opcodeRows, row.selects ctl = true := by
  constructor
  · rintro ⟨i, hd⟩
    obtain ⟨rfl, hwf⟩ := encode_of_decode_ok hd
    obtain ⟨row, hrow, -, hsel⟩ := encode_selects_row hwf
    exact ⟨row, hrow, hsel⟩
  · rintro ⟨row, hrow, hsel⟩
    obtain ⟨i, hd, -⟩ := (selects_iff_decode hrow ctl).mp hsel
    exact ⟨i, hd⟩

/-! ## Counting the legal words -/

/-- The fields `op`, `wsel`, `pos`, `st`, each taken from a list of its own. -/
def fieldBox (ops wsels poss sts : List Nat) : List (Nat × Nat × Nat × Nat) := ops ×ˢ wsels ×ˢ poss ×ˢ sts

section FieldBox
variable {ops wsels poss sts : List Nat}

@[simp] theorem mem_fieldBox {op wsel pos st : Nat} :
    (op, wsel, pos, st) ∈ fieldBox ops wsels poss sts ↔ op ∈ ops ∧ wsel ∈ wsels ∧ pos ∈ poss ∧ st ∈ sts := by
  simp only [fieldBox, List.mem_product]

@[simp] theorem fieldBox_length :
    (fieldBox ops wsels poss sts).length = ops.length * (wsels.length * (poss.length * sts.length)) := by
  simp only [fieldBox, List.length_product]

theorem fieldBox_nodup (hops : ops.Nodup) (hwsels : wsels.Nodup) (hposs : poss.Nodup) (hsts : sts.Nodup) :
    (fieldBox ops wsels poss sts).Nodup :=
  hops.product (hwsels.product (hposs.product hsts))

/-- Boxes whose operations differ share no fields. -/
theorem fieldBox_disjoint {ops' wsels' poss' sts' : List Nat} (h : ∀ op ∈ ops, op ∉ ops') :
    (fieldBox ops wsels poss sts).Disjoint (fieldBox ops' wsels' poss' sts') := by
  rintro ⟨op, wsel, pos, st⟩ hmem hmem'
  exact h op (mem_fieldBox.mp hmem).1 (mem_fieldBox.mp hmem').1

end FieldBox

/-- The fields of every word that R47 selects: two of ABS, 4·256 of BTST, 4·65536 of BSET, two of PACK4X16 and UNPK4X16. -/
def legalFields : List (Nat × Nat × Nat × Nat) :=
  fieldBox [3] [2, 3] [0] [0] ++ (fieldBox [1] (List.range 4) (List.range 256) [0] ++
    (fieldBox [2] (List.range 4) (List.range 256) (List.range 256) ++ fieldBox [4, 5] [0] [0] [0]))

theorem mem_legalFields {op wsel pos st : Nat} :
    (op, wsel, pos, st) ∈ legalFields ↔
      (op = 3 ∧ (wsel = 2 ∨ wsel = 3) ∧ pos = 0 ∧ st = 0) ∨ (op = 1 ∧ wsel < 4 ∧ pos < 256 ∧ st = 0) ∨
      (op = 2 ∧ wsel < 4 ∧ pos < 256 ∧ st < 256) ∨ ((op = 4 ∨ op = 5) ∧ wsel = 0 ∧ pos = 0 ∧ st = 0) := by
  simp [legalFields]

theorem legalFields_length : legalFields.length = 263172 := by
  simp only [legalFields, List.length_append, fieldBox_length, List.length_range, List.length_cons, List.length_nil]

theorem legalFields_nodup : legalFields.Nodup := by
  have hone (n : Nat) : [n].Nodup := List.nodup_singleton n
  have hrange (n : Nat) : (List.range n).Nodup := List.nodup_range
  have habs : (fieldBox [3] [2, 3] [0] [0]).Nodup := fieldBox_nodup (hone 3) (by decide) (hone 0) (hone 0)
  have hbtst := fieldBox_nodup (hone 1) (hrange 4) (hrange 256) (hone 0)
  have hbset := fieldBox_nodup (hone 2) (hrange 4) (hrange 256) (hrange 256)
  have hpack : (fieldBox [4, 5] [0] [0] [0]).Nodup := fieldBox_nodup (by decide) (hone 0) (hone 0) (hone 0)
  refine habs.append (hbtst.append (hbset.append hpack ?_) ?_) ?_
  · exact fieldBox_disjoint (by decide)
  · exact List.disjoint_append_right.mpr ⟨fieldBox_disjoint (by decide), fieldBox_disjoint (by decide)⟩
  · exact List.disjoint_append_right.mpr ⟨fieldBox_disjoint (by decide),
      List.disjoint_append_right.mpr ⟨fieldBox_disjoint (by decide), fieldBox_disjoint (by decide)⟩⟩

/-- The word that R39 makes of four fields. -/
def wordOfFields (f : Nat × Nat × Nat × Nat) : Ctl := encodeFields f.1 f.2.1 f.2.2.1 f.2.2.2

/-- The legal words, listed by their fields. -/
def legalWords : List Ctl := legalFields.map wordOfFields

/-- A word is the one of legal fields exactly when it holds them and its reserved fields are 0. -/
theorem wordOfFields_eq_iff {f : Nat × Nat × Nat × Nat} (hf : f ∈ legalFields) (ctl : Ctl) :
    wordOfFields f = ctl ↔ (bitsAt ctl 6 2 = 0 ∧ bitsAt ctl 24 8 = 0) ∧
      (bitsAt ctl 0 4, bitsAt ctl 4 2, bitsAt ctl 8 8, bitsAt ctl 16 8) = f := by
  obtain ⟨op, wsel, pos, st⟩ := f
  rw [mem_legalFields] at hf
  have hword : ctl = encodeFields op wsel pos st ↔ _ :=
    eq_encodeFields_iff (by omega) (by omega) (by omega) (by omega)
  rw [eq_comm, wordOfFields, hword]
  simp

theorem legalWords_length : legalWords.length = 263172 := by
  rw [legalWords, List.length_map, legalFields_length]

theorem legalWords_nodup : legalWords.Nodup := by
  refine legalFields_nodup.map_on fun f hf g hg hfg => ?_
  obtain ⟨-, hfields⟩ := (wordOfFields_eq_iff hf _).mp hfg
  obtain ⟨-, hfields'⟩ := (wordOfFields_eq_iff hg _).mp rfl
  exact hfields.symm.trans hfields'

/-- The legal words are those without a reserved bit whose other fields are legal. -/
theorem mem_legalWords (ctl : Ctl) :
    ctl ∈ legalWords ↔ (bitsAt ctl 6 2 = 0 ∧ bitsAt ctl 24 8 = 0) ∧
      (bitsAt ctl 0 4, bitsAt ctl 4 2, bitsAt ctl 8 8, bitsAt ctl 16 8) ∈ legalFields := by
  rw [legalWords, List.mem_map]
  constructor
  · rintro ⟨f, hf, hword⟩
    obtain ⟨hrz, rfl⟩ := (wordOfFields_eq_iff hf ctl).mp hword
    exact ⟨hrz, hf⟩
  · rintro ⟨hrz, hf⟩
    exact ⟨_, hf, (wordOfFields_eq_iff hf ctl).mpr ⟨hrz, rfl⟩⟩

/-- The legal words are the words that decode to an instruction: what is in none of the five classes of R49. -/
theorem mem_legalWords_iff_decode (ctl : Ctl) : ctl ∈ legalWords ↔ ∃ i : Instr, decode ctl = .ok i := by
  have hw : bitsAt ctl 4 2 < 4 := bitsAt_lt ctl 4 2
  have hp : bitsAt ctl 8 8 ≤ 255 := bitsAt_pos_le ctl
  have hs : bitsAt ctl 16 8 ≤ 255 := bitsAt_st_le ctl
  rw [exists_decode_ok_iff_not_error, exists_decode_error_iff, mem_legalWords, mem_legalFields]
  omega

end Sys2Proof.Machine
end

section
/-! What an instruction reads of its request (spec/30_encoding.md R45): the rest does not reach its response. -/

namespace Sys2Proof.Machine

/-- How many low bits of `req_a` an instruction reads (R32, R45). -/
def readWidth : Instr → Nat
  | .pack4x16 => 0
  | .btstW8 _ | .bsetW8 _ _ => 8
  | .btstW16 _ | .bsetW16 _ _ => 16
  | .absW32 | .btstW32 _ | .bsetW32 _ _ => 32
  | .absW64 | .btstW64 _ | .bsetW64 _ _ | .unpk4x16 => 64

section Reads
variable {q q' : Request} {w : Nat}

theorem absResponse_congr (h : q.operand w = q'.operand w) : absResponse w q = absResponse w q' := by
  simp only [absResponse, h]

theorem btstResponse_congr (pos : Nat) (h : q.operand w = q'.operand w) :
    btstResponse w pos q = btstResponse w pos q' := by
  simp only [btstResponse, h]

theorem bsetResponse_congr (pos st : Nat) (h : q.operand w = q'.operand w) :
    bsetResponse w pos st q = bsetResponse w pos st q' := by
  simp only [bsetResponse, h]

theorem packResponse_congr (h : q.f0 = q'.f0 ∧ q.f1 = q'.f1 ∧ q.f2 = q'.f2 ∧ q.f3 = q'.f3) :
    packResponse q = packResponse q' := by
  obtain ⟨h0, h1, h2, h3⟩ := h
  simp only [packResponse, Request.field0, Request.field1, Request.field2, Request.field3, h0, h1, h2, h3]

theorem operand_64 (q : Request) : q.operand 64 = q.a := BitVec.setWidth_eq q.a

theorem unpackResponse_congr (h : q.operand 64 = q'.operand 64) : unpackResponse q = unpackResponse q' := by
  rw [operand_64, operand_64] at h
  simp only [unpackResponse, Request.word, h]

/-- Two requests that agree on what an instruction reads get one response from it (R45). -/
theorem responseOf_congr (i : Instr) (ha : i.readsA = true → q.operand (readWidth i) = q'.operand (readWidth i))
    (hf : i.readsFields = true → q.f0 = q'.f0 ∧ q.f1 = q'.f1 ∧ q.f2 = q'.f2 ∧ q.f3 = q'.f3) :
    responseOf i q = responseOf i q' := by
  cases i with
  | absW32 | absW64 => exact absResponse_congr (ha rfl)
  | btstW8 pos | btstW16 pos | btstW32 pos | btstW64 pos => exact btstResponse_congr pos (ha rfl)
  | bsetW8 pos st | bsetW16 pos st | bsetW32 pos st | bsetW64 pos st => exact bsetResponse_congr pos st (ha rfl)
  | pack4x16 => exact packResponse_congr (hf rfl)
  | unpk4x16 => exact unpackResponse_congr (ha rfl)

end Reads

/-! ## Assembled lines -/

/-- The assembler refuses exactly the ill-formed instructions (R52). -/
theorem assemble_eq_none_iff (i : Instr) (x : DataOperands) : assemble i x = none ↔ i.wf = false := by
  unfold assemble
  cases i.wf <;> simp

/-- An assembled request holds the word of its well-formed instruction, and the line's operands on the ports it reads. -/
theorem assemble_eq_some {i : Instr} {x : DataOperands} {q : Request} (h : assemble i x = some q) :
    i.wf = true ∧ q.ctl = encode i ∧ (i.readsA = true → q.a = x.a) ∧
      (i.readsFields = true → q.f0 = x.f0 ∧ q.f1 = x.f1 ∧ q.f2 = x.f2 ∧ q.f3 = x.f3) := by
  unfold assemble at h
  cases hwf : i.wf with
  | false =>
    rw [hwf] at h
    cases h
  | true =>
    rw [hwf] at h
    obtain rfl := Option.some.inj h
    simp +contextual

end Sys2Proof.Machine
end

section
/-! The obligations of spec/30_encoding.md. -/

namespace Sys2Proof.Machine

/-- Settles O32: the word's fields are the instruction's. -/
theorem decodeOfEncodeIsIdentity : Obligations.DecodeOfEncodeIsIdentity := fun _ hwf => decode_encode hwf

/-- Settles O33: an accepted word is the one word of its fields. -/
theorem encodeOfDecodeIsIdentity : Obligations.EncodeOfDecodeIsIdentity := fun _ _ hd => encode_of_decode_ok hd

/-- Settles O16: the response is made of what the instruction reads. -/
theorem unreadOperandsDoNotReachResponse : Obligations.UnreadOperandsDoNotReachResponse := by
  intro i s u hreads
  have hresponse : responseOf i s.request = responseOf i u.request := by
    refine responseOf_congr i (fun ha => ?_) (fun hf => ?_)
    · cases i with
      | btstW8 | btstW16 | btstW32 | bsetW8 | bsetW16 | bsetW32 | absW32 => exact hreads
      | absW64 | btstW64 | bsetW64 | unpk4x16 => exact congrArg (BitVec.setWidth 64) hreads
      | pack4x16 => cases ha
    · cases i with
      | pack4x16 => exact hreads
      | _ => cases hf
  exact ⟨responseOf i s.request, _, _, exec_eq_respond i s, State.respond_answers _ _,
    hresponse ▸ exec_eq_respond i u, State.respond_answers _ _⟩

/-- Settles O28: no row is the complement of some row, and the classes are the decoder's own checks. -/
theorem illegalWordsAreTheFiveClasses : Obligations.IllegalWordsAreTheFiveClasses := by
  intro ctl
  refine ⟨?_, exists_decode_error_iff ctl⟩
  have hrows := (exists_decode_ok_iff_not_error ctl).symm.trans (exists_decode_ok_iff_selects ctl)
  rw [not_iff_comm] at hrows
  simpa using hrows.symm

/-- Settles O30: two rows that select one word have the mnemonic of its one instruction, and so are one row. -/
theorem decoderAgreesWithOpcodeRows : Obligations.DecoderAgreesWithOpcodeRows := by
  refine ⟨fun row hrow ctl => selects_iff_decode hrow ctl, fun row hrow row' hrow' ctl h h' => ?_⟩
  obtain ⟨i, hd, hmn⟩ := (selects_iff_decode hrow ctl).mp h
  obtain ⟨i', hd', hmn'⟩ := (selects_iff_decode hrow' ctl).mp h'
  obtain rfl : i = i' := Except.ok.inj (hd.symm.trans hd')
  exact opcodeRow_eq_of_mnemonic_eq row hrow row' hrow' (hmn.symm.trans hmn')

/-- Settles O31: the list is made from the legal fields. -/
theorem legalWordsNumber263172 : Obligations.LegalWordsNumber263172 :=
  ⟨legalWords, legalWords_nodup, legalWords_length, mem_legalWords_iff_decode⟩

/-- Settles O35: the round trip for the word, and the response is made of what the instruction reads. -/
theorem assembledLineRunsItsInstruction : Obligations.AssembledLineRunsItsInstruction := by
  refine fun i x => ⟨assemble_eq_none_iff i x, fun q hq => ?_⟩
  obtain ⟨hwf, hctl, ha, hf⟩ := assemble_eq_some hq
  have hd : decode q.ctl = .ok i := hctl ▸ decode_encode hwf
  refine ⟨hd, ?_⟩
  calc transact q = responseOf i q := transact_of_decode_ok hd
    _ = responseOf i ⟨q.ctl, x.a, x.f0, x.f1, x.f2, x.f3⟩ :=
      responseOf_congr i (fun h => congrArg (BitVec.setWidth _) (ha h)) hf
    _ = transact ⟨q.ctl, x.a, x.f0, x.f1, x.f2, x.f3⟩ := Eq.symm (transact_of_decode_ok hd)

/-- Settles O21: out of reset, the step samples the drive and dispatches its word. -/
theorem stepRunsDecodedInstruction : Obligations.StepRunsDecodedInstruction := by
  intro s d rest i hhost hv hrst hd
  have hsample := State.sample_cons hhost
  rw [step_of_legal (i := i) (sample_inReset_eq_false hhost hrst) (by rw [hsample]; exact hv) (by rw [hsample]; exact hd),
    hsample]

/-- Settles O29: the decoder looks at the reserved fields first. -/
theorem reservedBitsMakeWordIllegal : Obligations.ReservedBitsMakeWordIllegal :=
  fun _ hrz => ⟨.reservedBits, if_pos hrz⟩

/-- Settles O34: each word is the one of its instruction. -/
theorem workedWordsDecode : Obligations.WorkedWordsDecode := by
  unfold Obligations.WorkedWordsDecode
  decide

end Sys2Proof.Machine
end

section
/-! The branchless absolute value of spec/40_absolute_value.md R56: its sign mask, its multiplier and its product against the
library's `BitVec.abs`. -/

namespace Sys2Proof.Machine

variable {w : Nat}

/-- The sign mask of R56 is all ones of a negative value and all zeros of any other. -/
theorem sshiftRight_eq_signMask (x : BitVec w) :
    x.sshiftRight (w - 1) = if x.msb then BitVec.allOnes w else 0#w := by
  refine BitVec.eq_of_getLsbD_eq fun i hi => ?_
  have hbit : (x.sshiftRight (w - 1)).getLsbD i = x.msb := by
    rw [BitVec.getLsbD_sshiftRight]
    by_cases hi0 : i = 0
    · have hw : ¬w ≤ 0 := by omega
      simp [hi0, hw, BitVec.msb_eq_getLsbD_last]
    · have hpast : ¬w - 1 + i < w := by omega
      simp [hpast, hi]
  rw [hbit]
  cases x.msb <;> simp [hi]

/-- The multiplier of R56 is −1 for a negative value and 1 for any other (R59 (a)). -/
theorem signMask_or_one (x : BitVec w) :
    x.sshiftRight (w - 1) ||| (1#1).setWidth w = if x.msb then -1#w else 1#w := by
  have hone : (1#1).setWidth w = 1#w := BitVec.eq_of_toNat_eq (by simp)
  rw [sshiftRight_eq_signMask, hone]
  cases x.msb with
  | false => simp
  | true => simp [BitVec.neg_one_eq_allOnes]

/-- The product of R56, taken modulo 2^w, is the conditional negation: the library's absolute value, which wraps at the
minimum. -/
theorem absValue_eq_abs (x : BitVec w) : absValue x = x.abs := by
  have hproduct : absValue x = x * (x.sshiftRight (w - 1) ||| (1#1).setWidth w) := by
    rw [absValue, BitVec.ofInt_mul, BitVec.ofInt_toInt, BitVec.ofInt_toInt]
  rw [hproduct, signMask_or_one, BitVec.abs_eq]
  cases x.msb with
  | false => simp
  | true => simp

/-- The minimum is the one value that reads −2^(w−1). -/
theorem eq_intMin_iff_toInt (hw : 0 < w) (x : BitVec w) : x = BitVec.intMin w ↔ x.toInt = -2 ^ (w - 1) := by
  rw [← BitVec.toInt_inj, BitVec.toInt_intMin_of_pos hw]

/-- The signed reading of R56's result: the magnitude, and the minimum itself where the operand is the minimum. -/
theorem toInt_absValue (hw : 0 < w) (x : BitVec w) :
    (absValue x).toInt = if x.toInt = -2 ^ (w - 1) then -2 ^ (w - 1) else (x.toInt.natAbs : Int) := by
  rw [absValue_eq_abs, BitVec.toInt_abs_eq_natAbs, BitVec.toInt_intMin_of_pos hw]
  simp only [eq_intMin_iff_toInt hw]

end Sys2Proof.Machine
end

section
/-! The obligations of spec/40_absolute_value.md. -/

namespace Sys2Proof.Machine

/-- Settles O1: the response is the product of R56 at width 32, zero-extended. -/
theorem absW32AnswersMagnitude : Obligations.AbsW32AnswersMagnitude := fun s =>
  ⟨_, absValue (s.request.operand 32), exec_eq_respond .absW32 s, State.respond_answers _ _,
    toInt_absValue (by decide) _⟩

/-- Settles O2: the response is the product of R56 at width 64, which fills `rsp_r`. -/
theorem absW64AnswersMagnitude : Obligations.AbsW64AnswersMagnitude := by
  intro s
  have hresponse : responseOf .absW64 s.request = .ok (absValue s.req.reqA) 0 0 0 0 := by
    rw [responseOf, absResponse, operand_64, scalarResult, BitVec.setWidth_eq]
    rfl
  exact ⟨_, absValue s.req.reqA, hresponse ▸ exec_eq_respond .absW64 s, State.respond_answers _ _,
    toInt_absValue (by decide) _⟩

/-- Settles O23: such a word is in the class of ABS words with a wrong field (R49), and `Exec` answers ILLEGAL_REQUEST. -/
theorem absAtNarrowWidthIsIllegal : Obligations.AbsAtNarrowWidthIsIllegal := by
  intro s d rest hhost hv hrst hop hwsel
  obtain ⟨c, hd⟩ := (exists_decode_error_iff d.reqCtl).mpr (.inr (.inr (.inr (.inl ⟨hop, .inl hwsel⟩))))
  obtain ⟨t, hstep, hans⟩ := step_answers_transact hhost hv hrst
  rw [transact_of_decode_error (q := d.request) hd] at hans
  exact ⟨t, hstep, hans⟩

end Sys2Proof.Machine
end

section
/-! BTST and BSET as functions of the word on `req_a`, for the four forms of each at once (spec/41_bit_query_set.md R61 to
R74): the response at valid operands bit by bit, and the RangeErrors on the ports. -/

namespace Sys2Proof.Machine

/-- Running an instruction completes and answers the request with the instruction's response. -/
theorem exec_answers {i : Instr} {s : State} {r : Response} (h : responseOf i s.request = r) :
    ∃ t : State, exec i s = .next t ∧ Answers s t r :=
  ⟨_, h ▸ exec_eq_respond i s, State.respond_answers s r⟩

/-! ## The forms -/

/-- Each BTST form is the generic operation at its width (R63, R74). -/
theorem responseOf_of_mem_btstForms {f : Nat × (Nat → Instr)} (hf : f ∈ btstForms) (p : Nat) (q : Request) :
    responseOf (f.2 p) q = btstResponse f.1 p q := by
  simp only [btstForms, List.mem_cons, List.not_mem_nil, or_false] at hf
  obtain rfl | rfl | rfl | rfl := hf <;> rfl

/-- Each BSET form is the generic operation at its width (R68, R74). -/
theorem responseOf_of_mem_bsetForms {f : Nat × (Nat → Nat → Instr)} (hf : f ∈ bsetForms) (p st : Nat) (q : Request) :
    responseOf (f.2 p st) q = bsetResponse f.1 p st q := by
  simp only [bsetForms, List.mem_cons, List.not_mem_nil, or_false] at hf
  obtain rfl | rfl | rfl | rfl := hf <;> rfl

/-- A BSET form's value fits `rsp_r`. -/
theorem width_le_of_mem_bsetForms {f : Nat × (Nat → Nat → Instr)} (hf : f ∈ bsetForms) : f.1 ≤ 64 := by
  simp only [bsetForms, List.mem_cons, List.not_mem_nil, or_false] at hf
  obtain rfl | rfl | rfl | rfl := hf <;> decide

/-- A form of both kinds is a BTST form and a BSET form of one width. -/
theorem mem_forms_of_mem_bitForms {f : Nat × (Nat → Instr) × (Nat → Nat → Instr)} (hf : f ∈ bitForms) :
    (f.1, f.2.1) ∈ btstForms ∧ (f.1, f.2.2) ∈ bsetForms := by
  simp only [bitForms, List.mem_cons, List.not_mem_nil, or_false] at hf
  obtain rfl | rfl | rfl | rfl := hf <;> simp [btstForms, bsetForms]

/-! ## Valid operands -/

/-- What BTST at position p puts on `rsp_r` for the word `a` on `req_a` (R63). -/
def btstWord (p : Nat) (a : DataWord) : DataWord := BitVec.ofNat 64 (a.getLsbD p).toNat

/-- What BSET at width w puts on `rsp_r` for the word `a` on `req_a` (R68). -/
def bsetWord (w p st : Nat) (a : DataWord) : DataWord := (setBit (a.setWidth w) p st).setWidth 64

/-- BTST at a valid position answers the bit. -/
theorem exec_btst_valid {f : Nat × (Nat → Instr)} (hf : f ∈ btstForms) {p : Nat} (hp : p < f.1) (s : State) :
    ∃ t : State, exec (f.2 p) s = .next t ∧ Answers s t (.ok (btstWord p s.req.reqA) 0 0 0 0) := by
  have hbit : (s.request.operand f.1).getLsbD p = s.req.reqA.getLsbD p := by
    simp [Request.operand, State.request, Drive.request, hp]
  have hword : (BitVec.ofBool (s.req.reqA.getLsbD p)).setWidth 64 = btstWord p s.req.reqA := by
    rw [btstWord]
    cases s.req.reqA.getLsbD p <;> rfl
  refine exec_answers ?_
  rw [responseOf_of_mem_btstForms hf, btstResponse_valid _ hp, hbit, scalarResult, hword]

/-- BSET at a valid position and state answers the value it makes. -/
theorem exec_bset_valid {f : Nat × (Nat → Nat → Instr)} (hf : f ∈ bsetForms) {p st : Nat} (hp : p < f.1) (hst : st < 2)
    (s : State) :
    ∃ t : State, exec (f.2 p st) s = .next t ∧ Answers s t (.ok (bsetWord f.1 p st s.req.reqA) 0 0 0 0) :=
  exec_answers ((responseOf_of_mem_bsetForms hf p st _).trans (bsetResponse_valid _ hp hst))

/-- BTST's word is 1 exactly when the digit of weight 2^p is 1 (R9, R63). -/
theorem btstWord_eq_ite (p : Nat) (a : DataWord) : btstWord p a = if a.toNat / 2 ^ p % 2 = 1 then 1 else 0 := by
  rw [btstWord, BitVec.getLsbD, Nat.testBit_eq_decide_div_mod_eq]
  by_cases h : a.toNat / 2 ^ p % 2 = 1 <;> simp [h]

section Word
variable {w p : Nat} (hw : w ≤ 64) (hp : p < w)
include hw hp

/-- Bit k of BSET's word: the state at p, the operand's bit elsewhere below the width, 0 above (R68). -/
theorem getLsbD_bsetWord (st : Nat) (a : DataWord) (k : Nat) :
    (bsetWord w p st a).getLsbD k = if k = p then decide (st = 1) else (decide (k < w) && a.getLsbD k) := by
  rw [bsetWord, BitVec.getLsbD_setWidth, getLsbD_setBit _ hp, BitVec.getLsbD_setWidth]
  by_cases hk : k < 64
  · simp [hk]
  · have hkp : k ≠ p := by omega
    have hkw : ¬k < w := by omega
    simp [hk, hkp, hkw]

/-- BSET of the bit that is there already answers the operand (R73). -/
theorem bsetWord_of_bit (a : DataWord) :
    bsetWord w p (a.getLsbD p).toNat a = BitVec.ofNat 64 (a.toNat % 2 ^ w) := by
  refine BitVec.eq_of_getLsbD_eq fun k hk => ?_
  rw [getLsbD_bsetWord hw hp, BitVec.getLsbD_ofNat, Nat.testBit_mod_two_pow, BitVec.testBit_toNat]
  by_cases hkp : k = p
  · subst hkp
    cases hbit : a.getLsbD k <;> simp [hk, hp]
  · simp [hkp, hk]

/-- BSET of its own result changes nothing (R73). -/
theorem bsetWord_idem (st : Nat) (a : DataWord) : bsetWord w p st (bsetWord w p st a) = bsetWord w p st a := by
  refine BitVec.eq_of_getLsbD_eq fun k _ => ?_
  simp only [getLsbD_bsetWord hw hp]
  by_cases hkp : k = p <;> simp [hkp]

/-- BTST at the position that was set answers the state (R74). -/
theorem btstWord_bsetWord_same {st : Nat} (hst : st < 2) (a : DataWord) :
    btstWord p (bsetWord w p st a) = BitVec.ofNat 64 st := by
  rw [btstWord, getLsbD_bsetWord hw hp, if_pos rfl]
  obtain rfl | rfl : st = 0 ∨ st = 1 := by omega
  all_goals rfl

/-- BTST at another position answers as before (R74). -/
theorem btstWord_bsetWord_other {k : Nat} (hk : k < w) (hkp : k ≠ p) (st : Nat) (a : DataWord) :
    btstWord k (bsetWord w p st a) = btstWord k a := by
  rw [btstWord, btstWord, getLsbD_bsetWord hw hp, if_neg hkp, decide_eq_true hk, Bool.true_and]

end Word

/-! ## Invalid operands -/

/-- An instruction whose response is a RangeError completes, and the ports show the error without data (R87, R92). -/
theorem exec_answers_rangeError {i : Instr} {s : State} {param : RangeParam} {value bound : Nat}
    (h : responseOf i s.request = raiseRangeError param value bound) :
    ∃ (t : State) (r : Response), exec i s = .next t ∧ Answers s t r ∧
      r.ports = { valid := true, err := 1, param := param.kind.code, errval := BitVec.ofNat 32 value,
                  errbound := BitVec.ofNat 8 bound, r := 0, g0 := 0, g1 := 0, g2 := 0, g3 := 0 } := by
  obtain ⟨t, hexec, hans⟩ := exec_answers h
  exact ⟨t, _, hexec, hans, rfl⟩

end Sys2Proof.Machine
end

section
/-! The obligations of spec/41_bit_query_set.md. -/

namespace Sys2Proof.Machine

/-- Settles O7: the response is the value of R68, whose every bit is known. -/
theorem bsetForcesOneBit : Obligations.BsetForcesOneBit := by
  intro f hf p st s hp hst
  obtain ⟨t, hexec, hans⟩ := exec_bset_valid hf hp hst s
  exact ⟨t, _, hexec, hans, getLsbD_bsetWord (width_le_of_mem_bsetForms hf) hp st s.req.reqA⟩

/-- Settles O9: forcing a bit to what it is already changes nothing, for the operand and for BSET's own result. -/
theorem bsetOfQueriedStateIsNoOp : Obligations.BsetOfQueriedStateIsNoOp := by
  intro f hf p s hp
  obtain ⟨hbtst, hbset⟩ := mem_forms_of_mem_bitForms hf
  have hw : f.1 ≤ 64 := width_le_of_mem_bsetForms hbset
  constructor
  · have hb : (s.req.reqA.getLsbD p).toNat < 2 := Bool.toNat_lt _
    obtain ⟨t, hquery, hbit⟩ := exec_btst_valid hbtst hp s
    obtain ⟨u, hset, hvalue⟩ := exec_bset_valid hbset hp hb s
    exact ⟨t, _, hquery, hbit, hb, u, hset, bsetWord_of_bit hw hp s.req.reqA ▸ hvalue⟩
  · intro st hst
    obtain ⟨t, hset, hvalue⟩ := exec_bset_valid hbset hp hst s
    refine ⟨t, _, hset, hvalue, fun u hu => ?_⟩
    obtain ⟨v, hagain, hsame⟩ := exec_bset_valid hbset hp hst u
    rw [hu, bsetWord_idem hw hp] at hsame
    exact ⟨v, hagain, hsame⟩

/-- Settles O10: BTST reads off the bits of BSET's value. -/
theorem btstAfterBsetIsConsistent : Obligations.BtstAfterBsetIsConsistent := by
  intro f hf p st s hp hst
  obtain ⟨hbtst, hbset⟩ := mem_forms_of_mem_bitForms hf
  have hw : f.1 ≤ 64 := width_le_of_mem_bsetForms hbset
  obtain ⟨t, hset, hvalue⟩ := exec_bset_valid hbset hp hst s
  refine ⟨t, _, hset, hvalue, fun u hu => ⟨?_, fun k hk hkp => ?_⟩⟩
  · rw [← btstWord_bsetWord_same hw hp hst s.req.reqA, ← hu]
    exact exec_btst_valid hbtst hp u
  · obtain ⟨v, hafter, hafterBit⟩ := exec_btst_valid hbtst hk u
    obtain ⟨v', hbefore, hbeforeBit⟩ := exec_btst_valid hbtst hk s
    rw [hu, btstWord_bsetWord_other hw hp hk hkp] at hafterBit
    exact ⟨v, v', _, hafter, hafterBit, hbefore, hbeforeBit⟩

/-- Settles O5: the bit p of `req_a` is its digit of weight 2^p. -/
theorem btstAnswersBit : Obligations.BtstAnswersBit := by
  intro f hf p s hp
  rw [← btstWord_eq_ite]
  exact exec_btst_valid hf hp s

/-- Settles O6: the response is the RangeError about the position. -/
theorem btstInvalidPositionAnswersRangeError : Obligations.BtstInvalidPositionAnswersRangeError := fun _ hf p _ hp =>
  exec_answers_rangeError ((responseOf_of_mem_btstForms hf p _).trans (btstResponse_invalid _ hp))

/-- Settles O8: the position is checked before the state. -/
theorem bsetReportsPositionBeforeState : Obligations.BsetReportsPositionBeforeState := fun _ hf p st _ =>
  ⟨fun hp => exec_answers_rangeError ((responseOf_of_mem_bsetForms hf p st _).trans (bsetResponse_invalid_pos st _ hp)),
   fun hp hst =>
    exec_answers_rangeError ((responseOf_of_mem_bsetForms hf p st _).trans (bsetResponse_invalid_st _ hp hst))⟩

end Sys2Proof.Machine
end

section
/-! The packed word as a number (spec/42_pack_unpack.md R75 to R82): packing writes four digits to the base 2^16 and
unpacking reads them, so what the obligations say of the two is arithmetic of those digits. -/

namespace Sys2Proof.Machine

/-! ## Packing -/

/-- A field in one of the four lanes loses no bit, so lane i weighs its pattern by 2^(16·i) (R75). -/
theorem toNat_lane (x : Int16) {i : Nat} (hi : i < 4) : (lane x i).toNat = 2 ^ (16 * i) * x.toBitVec.toNat := by
  have hx : x.toBitVec.toNat < 2 ^ 16 := x.toBitVec.isLt
  simp only [lane, Config.fieldOffset, Config.fieldWidth, BitVec.toNat_shiftLeft, BitVec.toNat_setWidth,
    Nat.shiftLeft_eq]
  interval_cases i <;> omega

/-- A lane above all that is packed so far overlaps none of it: the OR of R76 is a sum. -/
theorem toNat_or_lane {v : DataWord} (x : Int16) {i : Nat} (hi : i < 4) (hv : v.toNat < 2 ^ (16 * i)) :
    (v ||| lane x i).toNat = v.toNat + 2 ^ (16 * i) * x.toBitVec.toNat := by
  rw [BitVec.toNat_or, toNat_lane x hi, Nat.or_comm, ← Nat.two_pow_add_eq_or_of_lt hv, Nat.add_comm]

/-- The digits of the packed word are the patterns of the fields (R76). -/
theorem toNat_packWord (a b c d : Int16) :
    (packWord a b c d).toBitVec.toNat =
      a.toBitVec.toNat + 2 ^ 16 * b.toBitVec.toNat + 2 ^ 32 * c.toBitVec.toNat + 2 ^ 48 * d.toBitVec.toNat := by
  have ha : a.toBitVec.toNat < 2 ^ 16 := a.toBitVec.isLt
  have hb : b.toBitVec.toNat < 2 ^ 16 := b.toBitVec.isLt
  have hc : c.toBitVec.toNat < 2 ^ 16 := c.toBitVec.isLt
  have h0 := toNat_lane a (i := 0) (by decide)
  have h1 := toNat_or_lane (v := lane a 0) b (i := 1) (by decide) (by omega)
  have h2 := toNat_or_lane (v := lane a 0 ||| lane b 1) c (i := 2) (by decide) (by omega)
  have h3 := toNat_or_lane (v := lane a 0 ||| lane b 1 ||| lane c 2) d (i := 3) (by decide) (by omega)
  rw [packWord, UInt64.toBitVec_ofBitVec]
  omega

/-! ## Unpacking -/

/-- Field i is digit i of the word (R77, R80). -/
theorem toNat_unpackField (w : UInt64) (i : Nat) :
    (unpackField w i).toBitVec.toNat = w.toBitVec.toNat / 2 ^ (16 * i) % 2 ^ 16 := by
  have hmask : (Config.unpackFieldMask.setWidth 64).toNat = 2 ^ 16 - 1 := by decide
  rw [unpackField, Int16.toBitVec_ofBitVec, BitVec.toNat_setWidth, BitVec.toNat_and, hmask,
    Nat.and_two_pow_sub_one_eq_mod, Nat.mod_mod, BitVec.toNat_ushiftRight, Nat.shiftRight_eq_div_pow,
    Config.fieldOffset, Config.fieldWidth]

/-- A field is known by its digit. -/
theorem unpackField_eq_of_digit {w : UInt64} {i : Nat} {x : Int16}
    (h : w.toBitVec.toNat / 2 ^ (16 * i) % 2 ^ 16 = x.toBitVec.toNat) : unpackField w i = x :=
  Int16.toBitVec_inj.mp (BitVec.eq_of_toNat_eq ((toNat_unpackField w i).trans h))

/-! ## The round trips -/

/-- Unpacking a packed word gives the fields (R78, R82). -/
theorem unpackField_packWord (a b c d : Int16) :
    unpackField (packWord a b c d) 0 = a ∧ unpackField (packWord a b c d) 1 = b ∧
      unpackField (packWord a b c d) 2 = c ∧ unpackField (packWord a b c d) 3 = d := by
  have hword := toNat_packWord a b c d
  have ha : a.toBitVec.toNat < 2 ^ 16 := a.toBitVec.isLt
  have hb : b.toBitVec.toNat < 2 ^ 16 := b.toBitVec.isLt
  have hc : c.toBitVec.toNat < 2 ^ 16 := c.toBitVec.isLt
  have hd : d.toBitVec.toNat < 2 ^ 16 := d.toBitVec.isLt
  refine ⟨?_, ?_, ?_, ?_⟩ <;> (apply unpackField_eq_of_digit; omega)

/-- Packing the four fields of a word gives the word (R79, R82). -/
theorem packWord_unpackField (w : UInt64) :
    packWord (unpackField w 0) (unpackField w 1) (unpackField w 2) (unpackField w 3) = w := by
  have hw : w.toBitVec.toNat < 2 ^ 64 := w.toBitVec.isLt
  refine UInt64.toBitVec_inj.mp (BitVec.eq_of_toNat_eq ?_)
  simp only [toNat_packWord, toNat_unpackField]
  omega

/-! ## Signed readings -/

/-- A signed field modulo 2^16 is its pattern (R11, R76). -/
theorem toInt_emod_two_pow_16 (x : FieldBits) : x.toInt % 2 ^ 16 = x.toNat := by
  have hx : x.toNat < 2 ^ 16 := x.isLt
  rw [BitVec.toInt_eq_toNat_cond]
  split <;> omega

/-- A field read signed is `s_16` of its pattern (R11). -/
theorem toInt_eq_signed16 (x : FieldBits) : x.toInt = signed16 x.toNat := by
  rw [BitVec.toInt_eq_toNat_cond, signed16]
  split <;> split <;> omega

/-- An unpacked field read signed is `s_16` of its digit (R77). -/
theorem toInt_unpackField (w : UInt64) (i : Nat) :
    (unpackField w i).toBitVec.toInt = signed16 (w.toBitVec.toNat / 2 ^ (16 * i) % 2 ^ 16) := by
  rw [toInt_eq_signed16, toNat_unpackField]

/-! ## The two instructions -/

/-- PACK4X16 completes and answers the packed word of `req_f0` to `req_f3` (R76). -/
theorem exec_pack4x16 (s : State) :
    ∃ t : State, exec .pack4x16 s = .next t ∧
      Answers s t (.ok (packWord (Int16.ofBitVec s.req.reqF0) (Int16.ofBitVec s.req.reqF1) (Int16.ofBitVec s.req.reqF2)
        (Int16.ofBitVec s.req.reqF3)).toBitVec 0 0 0 0) := by
  refine exec_answers ?_
  rw [responseOf, packResponse, scalarResult, BitVec.setWidth_eq]
  rfl

/-- UNPK4X16 completes and answers the four fields of `req_a` (R77). -/
theorem exec_unpk4x16 (s : State) :
    ∃ t : State, exec .unpk4x16 s = .next t ∧
      Answers s t (.ok 0 (unpackField (UInt64.ofBitVec s.req.reqA) 0).toBitVec
        (unpackField (UInt64.ofBitVec s.req.reqA) 1).toBitVec (unpackField (UInt64.ofBitVec s.req.reqA) 2).toBitVec
        (unpackField (UInt64.ofBitVec s.req.reqA) 3).toBitVec) :=
  exec_answers rfl

end Sys2Proof.Machine
end

section
/-! The obligations of spec/42_pack_unpack.md. -/

namespace Sys2Proof.Machine

/-- Settles O11: the digits of the word are the fields modulo 2^16. -/
theorem packAnswersFieldSum : Obligations.PackAnswersFieldSum := by
  intro s
  obtain ⟨t, hpack, hword⟩ := exec_pack4x16 s
  refine ⟨t, _, hpack, hword, ?_⟩
  simp only [toNat_packWord, Int16.toBitVec_ofBitVec, toInt_emod_two_pow_16]
  omega

/-- Settles O12: the lanes are the digits of `req_a`, of which the last needs no reduction. -/
theorem unpackAnswersSignedLanes : Obligations.UnpackAnswersSignedLanes := by
  intro s
  obtain ⟨t, hunpack, hfields⟩ := exec_unpk4x16 s
  have hlane (i : Nat) : (unpackField (UInt64.ofBitVec s.req.reqA) i).toBitVec.toInt =
      signed16 (s.req.reqA.toNat / 2 ^ (16 * i) % 2 ^ 16) := toInt_unpackField _ i
  have ha : s.req.reqA.toNat < 2 ^ 64 := s.req.reqA.isLt
  exact ⟨t, _, _, _, _, hunpack, hfields, (hlane 0).trans (congrArg signed16 (by omega)), hlane 1, hlane 2,
    (hlane 3).trans (congrArg signed16 (by omega))⟩

/-- Settles O13: unpacking undoes packing, in any state that holds the packed word. -/
theorem unpackAfterPackRestoresFields : Obligations.UnpackAfterPackRestoresFields := by
  intro s
  obtain ⟨t, hpack, hword⟩ := exec_pack4x16 s
  refine ⟨t, _, hpack, hword, fun u hu => ?_⟩
  obtain ⟨v, hunpack, hfields⟩ := exec_unpk4x16 u
  obtain ⟨h0, h1, h2, h3⟩ := unpackField_packWord (Int16.ofBitVec s.req.reqF0) (Int16.ofBitVec s.req.reqF1)
    (Int16.ofBitVec s.req.reqF2) (Int16.ofBitVec s.req.reqF3)
  rw [hu, UInt64.ofBitVec_toBitVec, h0, h1, h2, h3] at hfields
  exact ⟨v, hunpack, hfields⟩

/-- Settles O14: packing undoes unpacking, in any state that holds the unpacked fields. -/
theorem packAfterUnpackRestoresWord : Obligations.PackAfterUnpackRestoresWord := by
  intro s
  obtain ⟨t, hunpack, hfields⟩ := exec_unpk4x16 s
  refine ⟨t, _, _, _, _, hunpack, hfields, fun u h0 h1 h2 h3 => ?_⟩
  obtain ⟨v, hpack, hword⟩ := exec_pack4x16 u
  simp only [h0, h1, h2, h3, Int16.ofBitVec_toBitVec, packWord_unpackField] at hword
  exact ⟨v, hpack, hword⟩

/-- Settles O15: the two round trips. -/
theorem typedPackIsBijective : Obligations.TypedPackIsBijective := ⟨unpackField_packWord, packWord_unpackField⟩

end Sys2Proof.Machine
end

section
/-! What a response can be (spec/60_exceptions.md): the checks of BTST and BSET in their order, that nothing else raises a
RangeError, and the output ports of a response. -/

namespace Sys2Proof.Machine

/-! ## The checks of a BTST or BSET -/

/-- What a BTST or BSET at width `w` can answer, and when (R86, R88, R93). A BTST has no state to check; the field of its word
is 0, and so is `st` here. -/
inductive CheckedResponse (w pos st : Nat) : Response → Prop
  | position (hp : w ≤ pos) :
    CheckedResponse w pos st (.rangeError .position (BitVec.ofNat 32 pos) (BitVec.ofNat 8 (w - 1)))
  | state (hp : pos < w) (hst : 2 ≤ st) : CheckedResponse w pos st (.rangeError .state (BitVec.ofNat 32 st) 1)
  | success (hp : pos < w) (hst : st < 2) {r : Response} (hr : r.kind = .ok) : CheckedResponse w pos st r

/-- BTST checks its position (R61, R63). -/
theorem btstResponse_checked (w pos : Nat) (q : Request) : CheckedResponse w pos 0 (btstResponse w pos q) := by
  rcases Nat.lt_or_ge pos w with hp | hp
  · rw [btstResponse_valid q hp]
    exact .success hp Nat.two_pos rfl
  · rw [btstResponse_invalid q hp]
    exact .position hp

/-- BSET checks its position and then its state (R68, R93). -/
theorem bsetResponse_checked (w pos st : Nat) (q : Request) : CheckedResponse w pos st (bsetResponse w pos st q) := by
  rcases Nat.lt_or_ge pos w with hp | hp
  · rcases Nat.lt_or_ge st 2 with hst | hst
    · rw [bsetResponse_valid q hp hst]
      exact .success hp hst rfl
    · rw [bsetResponse_invalid_st q hp hst]
      exact .state hp hst
  · rw [bsetResponse_invalid_pos st q hp]
    exact .position hp

/-- A success is no RangeError. -/
theorem Response.ne_rangeError_of_kind_ok {r : Response} (hr : r.kind = .ok) (param : RangeParam) (value : BitVec 32)
    (bound : BitVec 8) : r ≠ .rangeError param value bound := by
  rintro rfl
  cases hr

namespace CheckedResponse
variable {w pos st : Nat} {r : Response}

/-- The RangeError about the position comes from an invalid position alone (R86). -/
theorem position_iff (h : CheckedResponse w pos st r) :
    (∃ (value : BitVec 32) (bound : BitVec 8), r = .rangeError .position value bound) ↔ w ≤ pos := by
  cases h with
  | position hp => simp [hp]
  | state hp hst => simp [hp]
  | success hp hst hr => simp [hp, Response.ne_rangeError_of_kind_ok hr]

/-- The RangeError about the state comes from an invalid state at a valid position alone (R88). -/
theorem state_iff (h : CheckedResponse w pos st r) :
    (∃ (value : BitVec 32) (bound : BitVec 8), r = .rangeError .state value bound) ↔ pos < w ∧ 2 ≤ st := by
  cases h with
  | position hp => simp [hp]
  | state hp hst => simp [hp, hst]
  | success hp hst hr => simp [hst, Response.ne_rangeError_of_kind_ok hr]

/-- An invalid state at a valid position is reported with the bound 1 (R88). -/
theorem eq_state_error (h : CheckedResponse w pos st r) (hp : pos < w) (hst : 2 ≤ st) :
    r = .rangeError .state (BitVec.ofNat 32 st) 1 := by
  cases h with
  | position hp' => omega
  | state => rfl
  | success _ hst' => omega

/-- Success takes a valid position and a valid state (R89). -/
theorem kind_eq_ok_iff (h : CheckedResponse w pos st r) : r.kind = .ok ↔ pos < w ∧ st < 2 := by
  cases h with
  | position hp => simp [Response.kind, hp]
  | state hp hst => simp [Response.kind, Nat.not_lt.mpr hst]
  | success hp hst hr => simp [hp, hst, hr]

/-- A BTST succeeds at a valid position: it has no state to check (R89). -/
theorem kind_eq_ok_iff_of_btst (h : CheckedResponse w pos 0 r) : r.kind = .ok ↔ pos < w := by
  simp [h.kind_eq_ok_iff]

/-- A word that spells a BTST or BSET is not answered ILLEGAL_REQUEST (R89). -/
theorem kind_ne_illegalRequest (h : CheckedResponse w pos st r) : r.kind ≠ .illegalRequest := by
  cases h with
  | position | state => exact ErrKind.noConfusion
  | success _ _ hr => simp [hr]

/-- The order of R93 over the fields of a word: a BTST word has the state 0, so only a BSET reaches the second check. -/
theorem ranked (h : CheckedResponse w pos st r) {op : Nat} (hop : op = 1 ∧ st = 0 ∨ op = 2) :
    if (op = 1 ∨ op = 2) ∧ w ≤ pos then r = .rangeError .position (BitVec.ofNat 32 pos) (BitVec.ofNat 8 (w - 1))
    else if op = 2 ∧ 2 ≤ st then r = .rangeError .state (BitVec.ofNat 32 st) 1
    else r.kind = .ok := by
  cases h with
  | position hp => rw [if_pos (by omega)]
  | state hp hst => rw [if_neg (by omega), if_pos (by omega)]
  | success hp hst hr => rwa [if_neg (by omega), if_neg (by omega)]

end CheckedResponse

/-! ## `Exec` of a word that spells an instruction -/

/-- A width of R42 is one of four. -/
theorem widthOf_cases {wsel : Nat} (h : wsel < 4) :
    widthOf wsel = 8 ∨ widthOf wsel = 16 ∨ widthOf wsel = 32 ∨ widthOf wsel = 64 := by
  interval_cases wsel <;> decide

/-- `Exec` of a legal word: BTST and BSET check the word's own fields, every other operation succeeds (R89). -/
theorem transact_cases_of_decode_ok {q : Request} {i : Instr} (hd : decode q.ctl = .ok i) :
    ((bitsAt q.ctl 0 4 = 1 ∧ bitsAt q.ctl 16 8 = 0 ∨ bitsAt q.ctl 0 4 = 2) ∧
      CheckedResponse (widthOf (bitsAt q.ctl 4 2)) (bitsAt q.ctl 8 8) (bitsAt q.ctl 16 8) (transact q)) ∨
    (3 ≤ bitsAt q.ctl 0 4 ∧ (transact q).kind = .ok) := by
  rw [transact_of_decode_ok hd]
  obtain ⟨-, ⟨hop, hst, rfl⟩ | ⟨hop, rfl⟩ | ⟨hop, -, -, ⟨-, rfl⟩ | ⟨-, rfl⟩⟩ | ⟨-, -, -, ⟨hop, rfl⟩ | ⟨hop, rfl⟩⟩⟩ :=
    decode_ok_cases hd
  · rw [responseOf_btstOf, ctlWsel_toNat, hst]
    exact .inl ⟨.inl ⟨hop, rfl⟩, btstResponse_checked ..⟩
  · rw [responseOf_bsetOf, ctlWsel_toNat]
    exact .inl ⟨.inr hop, bsetResponse_checked ..⟩
  all_goals exact .inr ⟨by omega, rfl⟩

/-- A RangeError comes from the checks of a BTST or BSET word alone (R83). -/
theorem checked_of_transact_eq_rangeError {q : Request} {param : RangeParam} {value : BitVec 32} {bound : BitVec 8}
    (h : transact q = .rangeError param value bound) :
    CheckedResponse (widthOf (bitsAt q.ctl 4 2)) (bitsAt q.ctl 8 8) (bitsAt q.ctl 16 8)
      (.rangeError param value bound) := by
  cases hd : decode q.ctl with
  | error c =>
    rw [transact_of_decode_error hd] at h
    cases h
  | ok i =>
    obtain ⟨-, hchecked⟩ | ⟨-, hok⟩ := transact_cases_of_decode_ok hd
    · exact h ▸ hchecked
    · exact absurd h (Response.ne_rangeError_of_kind_ok hok _ _ _)

/-! ## The output ports -/

/-- The codes on `rsp_err` tell the error kinds apart (R84). -/
@[simp] theorem ErrKind.code_inj {k k' : ErrKind} : k.code = k'.code ↔ k = k' := by
  cases k <;> cases k' <;> decide

/-- The codes on `rsp_param` tell the parameters apart (R84). -/
@[simp] theorem ParamKind.code_inj {k k' : ParamKind} : k.code = k'.code ↔ k = k' := by
  cases k <;> cases k' <;> decide

@[simp] theorem RangeParam.kind_ne_none (param : RangeParam) : param.kind ≠ .none := by cases param <;> decide

@[simp] theorem RangeParam.kind_ne_base (param : RangeParam) : param.kind ≠ .base := by cases param <;> decide

/-- The idle values are legal (R24). -/
theorem RspPorts.idle_legal : RspPorts.idle.Legal where
  no_format_error := by decide
  no_base := by decide
  param_iff := by decide
  error_no_data := by decide
  ok_no_details := by decide
  idle_zero := fun _ => rfl

/-- Every response puts legal values on the ports: what R84, R91 and R92 leave out has no `Response`. -/
theorem Response.ports_legal (r : Response) : r.ports.Legal where
  no_format_error := by cases r <;> simp [Response.ports]
  no_base := by cases r <;> simp [Response.ports]
  param_iff := by cases r <;> simp [Response.ports]
  error_no_data := by cases r <;> simp [Response.ports]
  ok_no_details := by cases r <;> simp [Response.ports]
  idle_zero := by cases r <;> exact Bool.noConfusion

/-- Every stage puts legal values on the ports when it reaches them, with a response or without (R24). -/
theorem Stage.ports_legal (st : Stage) : st.ports.Legal := by
  unfold Stage.ports
  cases st.valid with
  | false => exact RspPorts.idle_legal
  | true => exact st.payload.ports_legal

end Sys2Proof.Machine
end

section
/-! The obligations of spec/60_exceptions.md. -/

namespace Sys2Proof.Machine

/-- Settles O17: BTST and BSET check their position first, and the other four always succeed. -/
theorem positionErrorComesFromInvalidPosition : Obligations.PositionErrorComesFromInvalidPosition := by
  intro i s
  obtain ⟨t, hexec, hans⟩ := exec_answers (i := i) (s := s) rfl
  refine ⟨t, _, hexec, hans, ?_⟩
  cases i with
  | absW32 | absW64 | pack4x16 | unpk4x16 =>
    exact iff_of_false (fun ⟨_, _, h⟩ => Response.ne_rangeError_of_kind_ok rfl _ _ _ h) not_false
  | btstW8 p | btstW16 p | btstW32 p | btstW64 p => exact (btstResponse_checked _ p _).position_iff
  | bsetW8 p st | bsetW16 p st | bsetW32 p st | bsetW64 p st => exact (bsetResponse_checked _ p st _).position_iff

/-- Settles O18: only BSET checks a state, and only after its position. -/
theorem stateErrorComesFromInvalidState : Obligations.StateErrorComesFromInvalidState := by
  intro i s
  obtain ⟨t, hexec, hans⟩ := exec_answers (i := i) (s := s) rfl
  refine ⟨t, _, hexec, hans, ?_⟩
  cases i with
  | absW32 | absW64 | pack4x16 | unpk4x16 => exact Response.ne_rangeError_of_kind_ok rfl .state
  | btstW8 p | btstW16 p | btstW32 p | btstW64 p =>
    exact fun value bound h => by simpa using (btstResponse_checked _ p _).state_iff.mp ⟨value, bound, h⟩
  | bsetW8 p st | bsetW16 p st | bsetW32 p st | bsetW64 p st =>
    exact ⟨(bsetResponse_checked _ p st _).state_iff,
      fun hp hst => congrArg Response.ports ((bsetResponse_checked _ p st _).eq_state_error hp hst)⟩

/-- Settles O20: a check reports the very field it looked at, which is above the bound and fits 8 bits. -/
theorem rangeErrorDetailsAreConsistent : Obligations.RangeErrorDetailsAreConsistent := by
  intro q param value bound h
  have hpos := bitsAt_pos_le q.ctl
  have hst := bitsAt_st_le q.ctl
  have hfits {n : Nat} (hn : n ≤ 255) : (BitVec.ofNat 32 n).toNat = n := Nat.mod_eq_of_lt (by omega)
  cases checked_of_transact_eq_rangeError h with
  | position hp =>
    rw [hfits hpos]
    obtain hw | hw | hw | hw := widthOf_cases (bitsAt_lt q.ctl 4 2)
    all_goals
      rw [hw] at hp ⊢
      exact ⟨hp, hpos, fun _ => ⟨by decide, rfl⟩, RangeParam.noConfusion⟩
  | state _ hst2 =>
    rw [hfits hst]
    exact ⟨hst2, hst, RangeParam.noConfusion, fun _ => ⟨rfl, rfl⟩⟩
  | success _ _ hr => cases hr

/-- Settles O24: a word that decodes has been checked in the order of R93. -/
theorem errorsAreRanked : Obligations.ErrorsAreRanked := by
  intro s d rest hhost hv hrst op w pos st
  obtain ⟨t, hstep, hans⟩ := step_answers_transact hhost hv hrst
  refine ⟨t, _, hstep, hans, ?_⟩
  cases hd : decode d.reqCtl with
  | error c => exact transact_of_decode_error (q := d.request) hd
  | ok i =>
    obtain ⟨hop, hchecked⟩ | ⟨hop, hok⟩ := transact_cases_of_decode_ok (q := d.request) hd
    · exact hchecked.ranked hop
    · have hop3 : 3 ≤ op := hop
      dsimp only
      rwa [if_neg (by omega), if_neg (by omega)]

/-- Settles O41: the ports hold the idle values or those of the stage that left the pipeline. -/
theorem outputPortsAreLegalAfterEveryStep : Obligations.OutputPortsAreLegalAfterEveryStep := by
  intro s t hstep
  obtain ⟨-, rfl⟩ | ⟨-, -, rfl⟩ | ⟨-, -, rfl⟩ := step_cases_transact hstep
  · exact RspPorts.idle_legal
  · exact Stage.ports_legal _
  · exact Stage.ports_legal _

/-- Settles O19: success is passing the checks, and ABS, PACK4X16 and UNPK4X16 have none. -/
theorem responseKindOfEachInstruction : Obligations.ResponseKindOfEachInstruction := by
  intro i s
  obtain ⟨t, hexec, hans⟩ := exec_answers (i := i) (s := s) rfl
  refine ⟨t, _, hexec, hans, ?_⟩
  cases i with
  | absW32 | absW64 | pack4x16 | unpk4x16 => exact ⟨ErrKind.noConfusion, rfl⟩
  | btstW8 p | btstW16 p | btstW32 p | btstW64 p =>
    exact ⟨(btstResponse_checked _ p _).kind_ne_illegalRequest, (btstResponse_checked _ p _).kind_eq_ok_iff_of_btst⟩
  | bsetW8 p st | bsetW16 p st | bsetW32 p st | bsetW64 p st =>
    exact ⟨(bsetResponse_checked _ p st _).kind_ne_illegalRequest, (bsetResponse_checked _ p st _).kind_eq_ok_iff⟩

/-- Settles O22: `Exec` of a word that decodes to nothing is ILLEGAL_REQUEST. -/
theorem illegalWordAnswersIllegalRequest : Obligations.IllegalWordAnswersIllegalRequest := by
  intro s d rest c hhost hv hrst hd
  obtain ⟨t, hstep, hans⟩ := step_answers_transact hhost hv hrst
  exact ⟨t, _, hstep, hans, congrArg Response.ports (transact_of_decode_error (q := d.request) hd)⟩

end Sys2Proof.Machine
end

section
/-! What a step puts on the output ports, with a reset and without one, and what a run puts there (spec/10_state.md R23 to
R26; spec/70_reset_and_hazards.md R100, R101, R106). -/

namespace Sys2Proof.Machine

section Totality

/-- Every step answers a next state (R85, R105). -/
theorem exists_step_eq_next (s : State) : ∃ t : State, step s = .next t := by
  cases hr : s.sample.inReset with
  | true => exact ⟨_, step_of_inReset hr⟩
  | false =>
    cases hv : s.sample.req.reqValid with
    | false => exact ⟨_, step_of_idle hr hv⟩
    | true => exact ⟨_, step_of_request hr hv⟩

/-- A step keeps the latency, whichever of its three cases it takes. -/
theorem step_pipe_length {s t : State} (h : step s = .next t) : t.pipe.length = s.pipe.length := by
  obtain ⟨-, rfl⟩ | ⟨-, -, rfl⟩ | ⟨-, -, rfl⟩ := step_cases_transact h <;> simp

/-- A step takes one drive off the host's list, whichever of its three cases it takes. -/
theorem step_host {s t : State} (h : step s = .next t) : t.host = s.host.tail := by
  obtain ⟨-, rfl⟩ | ⟨-, -, rfl⟩ | ⟨-, -, rfl⟩ := step_cases_transact h <;> simp

end Totality

section Ports
variable {s t : State} {d : Drive} {rest : List Drive}

/-- An emptied pipeline shows the idle values, one cycle for each of its stages (R24, R100). -/
theorem bubbles_map_ports (n draw : Nat) : (bubbles n draw).map Stage.ports = List.replicate n RspPorts.idle := by
  induction n generalizing draw with
  | zero => rfl
  | succ n ih => rw [bubbles, List.map_cons, ih, Stage.bubble_ports, List.replicate_succ]

/-- The output ports take the values of the stages in their order: those in the pipeline, then the one that enters. -/
theorem State.enter_ports_in_order (s : State) (new : Stage) :
    (s.enter new).rsp :: (s.enter new).pipe.map Stage.ports = s.pipe.map Stage.ports ++ [new.ports] := by
  simpa using (congrArg (List.map Stage.ports) (shiftPipe_moves s.pipe new)).symm

/-- The step for a drive with `rst` = 1, on an engine with a pipeline (R101). -/
theorem step_of_rst (hhost : s.host = d :: rest) (hrst : d.rst = true) (hpipe : s.pipe ≠ []) :
    step s = .next { s with host := rest, req := d }.resetCycle := by
  rw [step_of_inReset (by simp [inReset_cons hhost, hrst, hpipe]), State.sample_cons hhost]

/-- The step for a drive without reset: its answer joins the end of what the output ports are going to show, and the first of
that stands on them (R23 to R25, R106). -/
theorem step_shows_ports_in_order (hhost : s.host = d :: rest) (hrst : d.rst = false) :
    ∃ t : State, step s = .next t ∧ t.host = rest ∧
      t.rsp :: t.pipe.map Stage.ports = s.pipe.map Stage.ports ++ [d.answer] := by
  obtain ⟨t, hstep⟩ := exists_step_eq_next s
  refine ⟨t, hstep, by rw [step_host hstep, hhost, List.tail_cons], ?_⟩
  have hreq : s.sample.req = d := congrArg State.req (State.sample_cons hhost)
  obtain ⟨hreset, -⟩ | ⟨-, hv, rfl⟩ | ⟨-, hv, rfl⟩ := step_cases_transact hstep
  · exact absurd hreset (by simp [sample_inReset_eq_false hhost (.inl hrst)])
  · have hanswer : d.answer = (Stage.bubble s.sample.draws).ports := by simp [Drive.answer, ← hreq, hv]
    rw [hanswer, ← State.sample_pipe s]
    exact State.enter_ports_in_order _ _
  · have hanswer : d.answer = (Stage.full (transact s.sample.request)).ports := by
      simp [Drive.answer, State.request, ← hreq, hv]
    rw [hanswer, ← State.sample_pipe s]
    exact State.enter_ports_in_order _ _

/-- A run of `n + 1` steps shows what its first step puts on the output ports, then what the other `n` do. -/
theorem outputsOver_succ (n : Nat) (h : step s = .next t) : outputsOver (n + 1) s = t.rsp :: outputsOver n t := by
  simp only [outputsOver, h]

/-- A run without reset shows what was in flight, then the answers to the drives (R106): each step moves the front of the one
list to the output ports and appends its drive's answer. -/
theorem outputsOver_eq_take {ds : List Drive} (hhost : s.host = ds ++ rest) (hrst : ∀ d ∈ ds, d.rst = false) :
    outputsOver ds.length s = (s.pipe.map Stage.ports ++ ds.map Drive.answer).take ds.length := by
  induction ds generalizing s with
  | nil => rfl
  | cons d ds ih =>
    obtain ⟨hd, hds⟩ := List.forall_mem_cons.mp hrst
    obtain ⟨t, hstep, hthost, hports⟩ := step_shows_ports_in_order hhost hd
    calc outputsOver (ds.length + 1) s
        = t.rsp :: (t.pipe.map Stage.ports ++ ds.map Drive.answer).take ds.length := by
          rw [outputsOver_succ _ hstep, ih hthost hds]
      _ = ((t.rsp :: t.pipe.map Stage.ports) ++ ds.map Drive.answer).take (ds.length + 1) := rfl
      _ = (s.pipe.map Stage.ports ++ (d :: ds).map Drive.answer).take (ds.length + 1) := by
          rw [hports, List.append_assoc, List.singleton_append, List.map_cons]

end Ports

/-- No response stands in the pipeline or on the output ports right after reset (R100). -/
theorem State.resetAt_onlyAnswers (n : Nat) : (State.resetAt n).OnlyAnswers :=
  ⟨fun _ hst => Stage.isAnswer_of_not_valid (bubbles_valid hst), .inl rfl⟩

/-- The output ports right after reset are idle, as the drive without a request on the input ports has them. -/
theorem State.resetAt_combinational (n : Nat) : (State.resetAt n).Combinational := fun _ => rfl

end Sys2Proof.Machine
end

section
/-! The obligations of spec/70_reset_and_hazards.md. -/

namespace Sys2Proof.Machine

/-- Settles O38, by induction on the drives. -/
theorem runAnswersInOrderAfterLatency : Obligations.RunAnswersInOrderAfterLatency :=
  fun _ _ _ hhost hrst => outputsOver_eq_take hhost hrst

/-- Settles O39: the reset cycle leaves a pipeline of bubbles, and the run from there shows their idle values first. -/
theorem resetDropsThenRunStartsAfresh : Obligations.ResetDropsThenRunStartsAfresh := by
  intro s d ds rest hhost hrst hpipe hds
  rw [outputsOver_succ _ (step_of_rst hhost hrst hpipe), outputsOver_eq_take (rest := rest) rfl hds,
    State.resetCycle_rsp, State.resetCycle_pipe, bubbles_map_ports, List.take_succ_cons]

/-- Settles O40: each of the three things a step can do answers a next state. -/
theorem everyStepAnswersNext : Obligations.EveryStepAnswersNext := by
  intro s
  obtain ⟨t, hstep⟩ := exists_step_eq_next s
  exact ⟨t, hstep, step_pipe_length hstep, step_host hstep⟩

/-- Settles O26: the step is the reset cycle, and it leaves bubbles only. -/
theorem resetCycleDropsWhatIsInFlight : Obligations.ResetCycleDropsWhatIsInFlight :=
  fun _ _ _ hhost hrst hpipe =>
    ⟨_, step_of_rst hhost hrst hpipe, rfl, rfl, rfl, bubbles_length _ _, fun _ => bubbles_valid⟩

/-- Settles O27: the pipeline right after reset is made of bubbles. -/
theorem resetLeavesNothingInFlight : Obligations.ResetLeavesNothingInFlight :=
  ⟨fun _ => ⟨bubbles_length _ _, fun _ => bubbles_valid, rfl⟩, rfl, rfl⟩

/-- Settles O44: right after reset there is no response and no request. -/
theorem resetMeetsInvariants : Obligations.ResetMeetsInvariants :=
  fun n => ⟨State.resetAt_onlyAnswers n, State.resetAt_combinational n⟩

end Sys2Proof.Machine
end

section
/-! The derived laws of spec/40_absolute_value.md R59: R56's product as a conditional negation and by its sign mask, and ABS of
its own result. -/

namespace Sys2Proof.Machine

section Laws
variable {w : Nat}

theorem absValue_eq_ite_neg (x : BitVec w) : absValue x = if x.msb then -x else x := by
  rw [absValue_eq_abs, BitVec.abs_eq]

/-- XOR with the sign mask complements a negative value, and subtracting the mask, −1 there, adds the 1 of two's
complement. -/
theorem xor_sub_signMask (x : BitVec w) :
    (x ^^^ x.sshiftRight (w - 1)) - x.sshiftRight (w - 1) = if x.msb then -x else x := by
  rw [sshiftRight_eq_signMask]
  cases x.msb with
  | false => simp
  | true =>
    calc (x ^^^ BitVec.allOnes w) - BitVec.allOnes w
        = ~~~x - -1#w := by rw [BitVec.xor_allOnes, BitVec.neg_one_eq_allOnes]
      _ = ~~~x + 1#w := BitVec.sub_neg
      _ = -x := (BitVec.neg_eq_not_add x).symm

/-- A result of ABS is either not negative or the minimum, which is its own negation. -/
theorem absValue_absValue (x : BitVec w) : absValue (absValue x) = absValue x := by
  rw [absValue_eq_abs, absValue_eq_abs, BitVec.abs_eq x.abs]
  cases hmsb : x.abs.msb with
  | false => rfl
  | true =>
    have hmin : x = BitVec.intMin w := by
      rw [BitVec.msb_abs, Bool.and_eq_true] at hmsb
      exact of_decide_eq_true hmsb.1
    rw [if_pos rfl, hmin, BitVec.abs_intMin, BitVec.neg_intMin]

end Laws

/-- ABS.W32 answers the product of R56 for the low 32 bits of `req_a` (R57). -/
theorem exec_absW32_answers (s : State) : ∃ t : State, exec .absW32 s = .next t ∧
    Answers s t (.ok ((absValue (s.req.reqA.setWidth 32)).setWidth 64) 0 0 0 0) :=
  exec_answers rfl

/-- ABS.W64 answers the product of R56 for the whole of `req_a` (R58). -/
theorem exec_absW64_answers (s : State) : ∃ t : State, exec .absW64 s = .next t ∧
    Answers s t (.ok (absValue s.req.reqA) 0 0 0 0) := by
  refine exec_answers ?_
  rw [responseOf, absResponse, operand_64, scalarResult, BitVec.setWidth_eq]
  rfl

end Sys2Proof.Machine
end

section
/-! The obligations of R59. -/

namespace Sys2Proof.Machine

/-- Settles O3: both forms are the conditional negation. -/
theorem absProductIsConditionalNegation : Obligations.AbsProductIsConditionalNegation := fun _ x _ =>
  ⟨absValue_eq_ite_neg x, (absValue_eq_ite_neg x).trans (xor_sub_signMask x).symm⟩

/-- Settles O4: the second response is the product of R56 for the first one. -/
theorem absIsIdempotent : Obligations.AbsIsIdempotent := by
  constructor
  · intro s
    obtain ⟨t, hexec, hans⟩ := exec_absW32_answers s
    exact ⟨t, _, hexec, hans, fun u hu => by simpa only [hu, absValue_absValue] using exec_absW32_answers u⟩
  · intro s
    obtain ⟨t, hexec, hans⟩ := exec_absW64_answers s
    exact ⟨t, _, hexec, hans, fun u hu => by simpa only [hu, absValue_absValue] using exec_absW64_answers u⟩

end Sys2Proof.Machine
end
